-- ==== Sys2Proof/Word.lean ====
section
/-! DEFINITION. The word types: a byte of a frame or a record, a station number of the Survey Link. -/

namespace Sys2Proof

/-- One byte of a payload, a stored record or a check byte (12, R187). -/
abbrev Byte := BitVec 8

/-- A station number, 0..15: 0..7 recorder stations, 8..15 consoles (00, The van and its stations). -/
abbrev Station := Fin 16

/-- Every station number, lowest first. -/
def allStations : List Station :=
  [0, 1, 2, 3, 4, 5, 6, 7, 8, 9, 10, 11, 12, 13, 14, 15]

end Sys2Proof
end

