-- ==== Sys2Proof/Syntax.lean ====
section
/-! DEFINITION. The frame kinds, and the commands of the part: one constructor of Instr per row of
spec/opcode_table.json, with the operands the row's event carries. -/

namespace Sys2Proof

/-- A frame as the receiver reads it (10, R165), for a row of the table that is a frame of one kind. Such a frame has
passed the first three steps of R169: its length is in range, its check byte and stuffing are good, its kind is known. -/
structure RxFrame where
  sender : Station
  broadcast : Bool
  dest : Station
  payload : List Byte
deriving DecidableEq, Repr

namespace Machine

/-- The 30 frame kinds, in kind-number order (12.1). -/
inductive FrameKind where
  | triggerNotice | offers | agreeRequest | agreeAccept | agreeReject | agreeEnd | jobOpen | jobQueued | printGo
  | printLine | printState | printEnd | jobCancel | surveySet | surveyStart | surveyEnd | statusQuery | fetchSetup
  | fetch | discard | contextOpen | contextClose | noteAdd | noteStrike | reportRequest | reportCancel | answer
  | status | fetchData | presence
deriving DecidableEq, Repr

end Machine

/-- A frame that arrives while the SAFE procedure is carried out: its kind, and how many of the six steps have been made
when it arrives; it is taken before the next of them (R182). -/
structure SafeFrame where
  made : Fin 6
  kind : Machine.FrameKind
  frame : RxFrame
deriving DecidableEq, Repr

/-- What a restart comes from (11, R185). -/
inductive RestartSource where
  | supplyRise
  | resetPin
deriving DecidableEq, Repr

/-- The strap pins as read at a restart (00, Connections; 10, R179). -/
structure Straps where
  /-- ID2..ID0, the station number -/
  id : Fin 8
  /-- PRN, printer fitted -/
  prn : Bool
  /-- TWOC, two-colour paper fitted -/
  twoc : Bool
deriving DecidableEq, Repr

/-- Where a stop of the part falls. The rules that speak of a stop within a step name these places (R98, R109, R110,
R178, R182); everywhere else a step is whole, and the stop falls between two (file 95, log 6). A stop that names no
place falls between two steps. -/
inductive StopPoint where
  /-- between two steps -/
  | between
  /-- the hold-up timer has run out, so many of the steps of the SAFE procedure have been made, and the frames that
  arrived up to there have been taken (R182) -/
  | inSafeProcedure (made : Fin 6) (during : List SafeFrame := [])
  /-- within this NOTE_ADD: the event's pin count is raised and the note record not yet written (R109) -/
  | inNoteAdd (f : RxFrame)
  /-- within this NOTE_STRIKE: the note is rewritten as struck and the pin count not yet lowered (R110) -/
  | inNoteStrike (f : RxFrame)
  /-- within this DISCARD: the record is released and the marker still WRITING for the change (R98) -/
  | inDiscard (f : RxFrame)
  /-- within this SURVEY_END: the header is rewritten as ENDED and the marker still WRITING (R98, R178) -/
  | inSurveyEnd (f : RxFrame)
deriving DecidableEq, Repr

/-- The commands, in the order of spec/opcode_table.json. Each docstring gives the row. -/
inductive Instr where
  /-- STROBE_DUE (R5) -/
  | strobeDue
  /-- SAMPLE_SET_ARRIVAL (R1): the three codes and the overrange mark -/
  | sampleSetArrival (v1 v2 v3 : BitVec 16) (overrange : Bool)
  /-- OFFERS_SEND_LIMIT_EXPIRY (R116) -/
  | offersSendLimitExpiry
  /-- OFFERS_REFRESH_TIMER (R116) -/
  | offersRefreshTimer
  /-- RETRY_TIMER_EXPIRY (R118), of the requester record toward a peer -/
  | retryTimerExpiry (peer : Station)
  /-- ANSWER_TIMER_EXPIRY (R120), of the requester record toward a peer -/
  | answerTimerExpiry (peer : Station)
  /-- TRIGGER_NOTICE (R125) -/
  | triggerNotice (f : RxFrame)
  /-- OFFERS (R117) -/
  | offers (f : RxFrame)
  /-- AGREE_REQUEST (R123) -/
  | agreeRequest (f : RxFrame)
  /-- AGREE_ACCEPT (R121) -/
  | agreeAccept (f : RxFrame)
  /-- AGREE_REJECT (R121) -/
  | agreeReject (f : RxFrame)
  /-- AGREE_END (R122) -/
  | agreeEnd (f : RxFrame)
  /-- PRESENCE (R173) -/
  | presence (f : RxFrame)
  /-- PRESENCE_TIMER (R173) -/
  | presenceTimer
  /-- PEER_ABSENT (R173) -/
  | peerAbsent (station : Station)
  /-- TRANSMIT_ATTEMPT (R167) -/
  | transmitAttempt
  /-- ARBITRATION_LOSS (R167) -/
  | arbitrationLoss
  /-- BIT_ERROR_ABORT (R168) -/
  | bitErrorAbort
  /-- FRAME_SENT (R167) -/
  | frameSent
  /-- SURVEY_SET (R176) -/
  | surveySet (f : RxFrame)
  /-- SURVEY_START (R177) -/
  | surveyStart (f : RxFrame)
  /-- SURVEY_END (R178) -/
  | surveyEnd (f : RxFrame)
  /-- STATUS_QUERY (R175) -/
  | statusQuery (f : RxFrame)
  /-- FETCH_SETUP (R94) -/
  | fetchSetup (f : RxFrame)
  /-- FETCH (R95) -/
  | fetch (f : RxFrame)
  /-- DISCARD (R96) -/
  | discard (f : RxFrame)
  /-- CONTEXT_OPEN (R104) -/
  | contextOpen (f : RxFrame)
  /-- CONTEXT_CLOSE (R105) -/
  | contextClose (f : RxFrame)
  /-- NOTE_ADD (R106) -/
  | noteAdd (f : RxFrame)
  /-- NOTE_STRIKE (R110) -/
  | noteStrike (f : RxFrame)
  /-- REPORT_REQUEST (R131) -/
  | reportRequest (f : RxFrame)
  /-- REPORT_CANCEL (R139) -/
  | reportCancel (f : RxFrame)
  /-- JOB_QUEUED (R135) -/
  | jobQueued (f : RxFrame)
  /-- OPENING_TIMER_EXPIRY (R135) -/
  | openingTimerExpiry
  /-- PRINT_GO (R136) -/
  | printGo (f : RxFrame)
  /-- PRINT_STATE (R137) -/
  | printState (f : RxFrame)
  /-- FINISHING_TIMER_EXPIRY (R137) -/
  | finishingTimerExpiry
  /-- PRINT_END (R138) -/
  | printEnd (f : RxFrame)
  /-- JOB_OPEN (R148) -/
  | jobOpen (f : RxFrame)
  /-- PRINT_LINE (R150) -/
  | printLine (f : RxFrame)
  /-- JOB_CANCEL (R154) -/
  | jobCancel (f : RxFrame)
  /-- LINE_TIMER_EXPIRY (R155) -/
  | lineTimerExpiry
  /-- HEAD_ROW_DONE (R153) -/
  | headRowDone
  /-- FEED_ROW_DONE (R163) -/
  | feedRowDone
  /-- PAPER_OUT (R158) -/
  | paperOut
  /-- PAPER_PRESENT (R159) -/
  | paperPresent
  /-- SETTLE_TIMER_EXPIRY (R159) -/
  | settleTimerExpiry
  /-- SUPPLY_WARN_ASSERT (R180) -/
  | supplyWarnAssert
  /-- HOLD_UP_TIMER (R182): the frames that arrive during the SAFE procedure, those between the same two steps in the
  order in which they arrive -/
  | holdUpTimer (during : List SafeFrame := [])
  /-- SUPPLY_WARN_RELEASE (R181) -/
  | supplyWarnRelease
  /-- SUPPLY_CUT (R184), and where it falls -/
  | supplyCut (point : StopPoint := .between)
  /-- RESTART (R185): where it comes from, whether the backup cell's monitor recorded a loss, the straps as read -/
  | restart (source : RestartSource) (backupLost : Bool) (straps : Straps)
  /-- ANSWER (R187) -/
  | answer (f : RxFrame)
  /-- STATUS (R187) -/
  | status (f : RxFrame)
  /-- FETCH_DATA (R187) -/
  | fetchData (f : RxFrame)
  /-- FRAME_DISCARDED (R169), with the levels read from the line, in order, recessive as true (R165) -/
  | frameDiscarded (bits : List Bool)
  /-- RESET_PIN_ASSERT (R60), and where it falls -/
  | resetPinAssert (point : StopPoint := .between)
deriving DecidableEq, Repr

end Sys2Proof
end

