-- ==== Sys2Proof/Machine/State.lean ====
section
/-! DEFINITION. The state of the part as plain data, block by block as the chapters give it, and the state right after
reset. Times are base ticks of 1 us unless a docstring says survey ms. -/

namespace Sys2Proof.Machine

/-- The three voltage channels. -/
inductive Channel where
  | v1 | v2 | v3
deriving DecidableEq, Repr

/-- One value for each of V1, V2 and V3. -/
structure Tri (α : Type) where
  v1 : α
  v2 : α
  v3 : α
deriving DecidableEq, Repr

/-- A set of channels. -/
abbrev ChannelSet := Tri Bool

/-! ### Record store memory -/

/-- The store's 4096 blocks of 128 bytes: (byte address, byte) pairs in canonical form (addresses strictly rising, no
byte 0 listed); an unlisted byte reads 0 (log 8). -/
abbrev Memory := List Host.Cell

/-! ### Sample Port, Cycle Clock, Window RMS Unit (chapter 1) -/

/-- A settled sample set (R4). -/
structure SampleSet where
  codes : Tri Int
  patched : Bool
  overrange : Bool
deriving DecidableEq, Repr

/-- The last reference code seen, for crossing detection (R9). -/
structure RefSample where
  code : Int
  tick : Nat
  patched : Bool
deriving DecidableEq, Repr

structure Sampling where
  /-- the last strobe driven is unanswered (R1) -/
  outstanding : Bool
  /-- number of the last strobe driven within its cycle, 0..63 (R5) -/
  position : Nat
  /-- tick at which it was driven (1.1) -/
  strobeTick : Nat
  /-- codes of the last taken or patched set (R1, R3) -/
  heldSet : Option (Tri Int)
  patchedSets : Nat
  lateSets : Nat
  /-- the tracked period P (1.2) -/
  period : Nat
  /-- P_k of the cycle in progress (R5) -/
  cyclePeriod : Nat
  /-- T_k (R5) -/
  cycleStart : Nat
  /-- k (R6) -/
  cycle : Nat
  /-- a period was accepted during the cycle in progress (R11) -/
  accepted : Bool
  /-- 0..4; the clock is in free-run exactly at 4 (R11) -/
  freeRunCount : Nat
  reference : Option Channel
  armed : Bool
  lastRef : Option RefSample
  /-- tick of the last accepted crossing (R7) -/
  anchor : Option Nat
  /-- sets of the cycle being assembled, newest first (R4) -/
  assembled : List SampleSet
  /-- the last settled sets since the window history was emptied, at most 64, newest first (R13) -/
  history : List SampleSet
  /-- number of the latest window evaluated (R13, R26) -/
  latestWindow : Nat
  /-- SURVEY_START accepted, cycle 0 not yet started (R18) -/
  firstCyclePending : Bool
deriving DecidableEq, Repr

/-- The survey clock (R12): holding a survey ms, or counting from a start value since a tick. -/
inductive SurveyClock where
  | holding (ms : Nat)
  | counting (start began : Nat)
deriving DecidableEq, Repr

/-- MID or END window (R16). -/
inductive WindowKind where
  | mid | end_
deriving DecidableEq, Repr

/-- A window result (R16). -/
structure WindowResult where
  number : Nat
  cycle : Nat
  kind : WindowKind
  endMs : Nat
  rms : Tri Nat
  residual : Tri Nat
  patched : Nat
  overrange : Bool
  valid : Bool
deriving DecidableEq, Repr

/-- A completed cycle as handed over (R6). -/
structure CompletedCycle where
  number : Nat
  startTick : Nat
  period : Nat
  /-- 64 sets, positions 0..63 -/
  sets : List SampleSet
  patched : Nat
  overrange : Nat
  valid : Bool
deriving DecidableEq, Repr

/-! ### Sag Detector (chapter 2) -/

/-- Detector states (2.1). -/
inductive DetectorState where
  | held | quiet | event | settle
deriving DecidableEq, Repr

/-- Capture status of an event record (12.2). -/
inductive CaptureStatus where
  | none | full | partial_ | shed
deriving DecidableEq, Repr

/-- Flags of an event record (12.2). -/
structure EventFlags where
  cutShort : Bool
  surveyEnd : Bool
  invalidSeen : Bool
  followsResume : Bool
  overrangeSeen : Bool
deriving DecidableEq, Repr

/-- The working copy of a recorded event (R24). -/
structure EventWork where
  recId : Nat
  number : Nat
  survey : Nat
  interruption : Bool
  startMs : Nat
  endMs : Option Nat
  duration : Nat
  interruptionWindows : Nat
  minRes : Tri Nat
  involved : ChannelSet
  relapses : Nat
  startStatus : CaptureStatus
  endStatus : CaptureStatus
  startId : Option Nat
  endId : Option Nat
  notice : Bool
  flags : EventFlags
deriving DecidableEq, Repr

/-- The event in progress: none, one that runs unrecorded (R23), or a recorded one with its working copy. -/
inductive OpenEvent where
  | none
  | unrecorded
  | recorded (w : EventWork)
deriving DecidableEq, Repr

/-- The latest event: its number and record id (R39). -/
structure LatestEvent where
  number : Nat
  recId : Nat
deriving DecidableEq, Repr

structure Detector where
  state : DetectorState
  settleCount : Nat
  event : OpenEvent
  openingWindow : Nat
  /-- c0, the cycle in which the opening window ended (R22) -/
  openingCycle : Nat
  pendingSettle : Nat
  nextEvent : Nat
  latest : Option LatestEvent
  resumeMark : Bool
  unrecorded : Nat
  endAsked : Bool
deriving DecidableEq, Repr

/-- The event mark handed to the Harmonic Unit (R21). -/
structure EventMark where
  eventWindow : Bool
  number : Option Nat
  opened : Bool
deriving DecidableEq, Repr

/-! ### Capture Engine (chapter 3) -/

/-- Kinds of capture slot (3.2). -/
inductive SlotKind where
  | ownStart | ownEnd | companion
deriving DecidableEq, Repr

structure Slot where
  kind : SlotKind
  recId : Nat
  /-- event number and record id of the parent, for own captures -/
  parent : Option LatestEvent
  first : Nat
  total : Nat
  written : Nat
  channels : ChannelSet
  decimation : Nat
  reserved : Nat
  order : Nat
deriving DecidableEq, Repr

structure Capture where
  /-- at most 16 cycles, oldest first (R42) -/
  ring : List CompletedCycle
  slots : Vector (Option Slot) 4
  openOrder : Nat
  ownRefused : Nat
  displaced : Nat
deriving DecidableEq, Repr

/-- Origin items of a companion's descriptor (R46). -/
structure Origin where
  station : Station
  surveyId : Nat
  event : Nat
  arrivalMs : Nat
  age : Nat
deriving DecidableEq, Repr

/-- A waveform descriptor (R46, 12.2). -/
structure Descriptor where
  survey : Nat
  /-- absent for a companion -/
  parent : Option LatestEvent
  /-- absent for an own waveform -/
  origin : Option Origin
  firstCycle : Nat
  firstMs : Nat
  firstPeriod : Nat
  wanted : Nat
  preTaken : Nat
  postTaken : Nat
  total : Nat
  written : Nat
  channels : ChannelSet
  decimation : Nat
  invalidWritten : Nat
  overrangeWritten : Nat
  clipped : Bool
  truncated : Bool
  cutShort : Bool
deriving DecidableEq, Repr

/-! ### Harmonic Unit (chapter 4) -/

/-- Accumulators of one channel of the interval in progress (R65). -/
structure ChannelSums where
  /-- sums of V_h squared, orders 1..25 -/
  harmonicSq : List Nat
  /-- maxima of V_h, orders 1..25 -/
  harmonicMax : List Nat
  thdSum : Nat
  thdCount : Nat
  thdMax : Nat
  rmsMin : Nat
  rmsMax : Nat
  rmsSq : Nat
deriving DecidableEq, Repr

structure Interval where
  index : Nat
  startMs : Nat
  endBoundary : Nat
  partial_ : Bool
  valid : Nat
  invalid : Nat
  event : Nat
  sums : Tri ChannelSums
  periodSum : Nat
  rmsWindows : Nat
  windows : Nat
  firstEvent : Option Nat
  events : Nat
  lastEvent : Option Nat
  notices : Nat
  overrangeSets : Nat
deriving DecidableEq, Repr

structure Harmonic where
  interval : Option Interval
  midMark : Option EventMark
  endMark : Option EventMark
  dropped : Nat
  lastInterval : Option Nat
deriving DecidableEq, Repr

/-! ### Record Store (chapter 5) -/

/-- Record kinds (R82), in the table's order. -/
inductive RecordKind where
  | header | event | waveformStart | waveformEnd | companion | interval | note | context
deriving DecidableEq, Repr

/-- A directory entry (R82). The chain lists the record's blocks in its own order: its head is the first block and its
length the block count (R80). -/
structure Entry where
  id : Nat
  kind : RecordKind
  survey : Nat
  open_ : Bool
  parent : Option Nat
  chain : List Nat
  hold : Bool
  pins : Option Nat
  time : Nat
  desc : Option Descriptor
deriving DecidableEq, Repr

/-- The parts of a record a fetch selects (R93). -/
inductive Part where
  | header
  | channel (c : Channel)
deriving DecidableEq, Repr

/-- A fetch cursor (R94). -/
structure Cursor where
  station : Station
  recId : Nat
  /-- an ERASE has taken place since the setup (R101) -/
  gone : Bool
  /-- the selected parts in order, each with its length at the setup -/
  parts : List (Part × Nat)
  position : Nat
  lastUse : Nat
deriving DecidableEq, Repr

structure Store where
  mem : Memory
  /-- the free list, head first (R81) -/
  free : List Nat
  freeCount : Nat
  /-- the directory in record id order (R82) -/
  dir : List Entry
  idCounter : Nat
  /-- the store marker reads WRITING (R98) -/
  writing : Bool
  cursors : List Cursor
  useStamp : Nat
  shed : Nat
  refused : Nat
deriving DecidableEq, Repr

/-! ### Note Unit (chapter 6) -/

structure Notes where
  /-- context numbers, outermost first -/
  stack : List Nat
  contexts : Nat
  nextNote : Nat
deriving DecidableEq, Repr

/-! ### Survey settings (10.7) -/

/-- An offer of group G5 (7.1). -/
structure Offer where
  channels : ChannelSet
  pre : Nat
  post : Nat
  decimation : Nat
  rate : Nat
deriving DecidableEq, Repr

/-- The want spec of group G6 (7.4). -/
structure Wants where
  channels : Nat
  pre : Nat
  post : Nat
  rate : Nat
  decimation2 : Bool
deriving DecidableEq, Repr

structure Settings where
  nominal : Nat
  declared : Nat
  threshold : Nat
  hysteresis : Nat
  interruption : Nat
  settle : Nat
  preCycles : Nat
  postCycles : Nat
  endCycles : Nat
  minutes : Nat
  ring : Bool
  holdUp : Nat
  offerCount : Nat
  /-- offers 1..6 of G5; none while never set -/
  offers : Vector (Option Offer) 6
  seek : Bool
  serve : Bool
  wants : Wants
  bankA : Nat
  bankB : Nat
  cellWidth : Nat
  colour : Bool
  energy : Nat
deriving DecidableEq, Repr

structure Survey where
  running : Bool
  number : Nat
  id : Nat
  startSeconds : Nat
  settings : Settings
deriving DecidableEq, Repr

/-! ### Agreement Unit and peer table (chapter 7, R173) -/

/-- An entry of an open-offer list: an offer and its table position (R115). -/
structure ListedOffer where
  position : Nat
  offer : Offer
deriving DecidableEq, Repr

structure Agreement where
  list : List ListedOffer
  revision : Nat
  pendingOffers : Bool
  sendLimit : Option Nat
  refresh : Option Nat
deriving DecidableEq, Repr

/-- Requester record states (R118). -/
inductive RequesterState where
  | none | noOffer | requested | active | rejected
deriving DecidableEq, Repr

structure Requester where
  state : RequesterState
  position : Nat
  revision : Nat
  offer : Option Offer
  mismatch : Bool
  /-- code of the reason of the last refusal, 0 none (12, Codes) -/
  reason : Nat
  activationMs : Nat
  retryTimer : Option Nat
  answerTimer : Option Nat
deriving DecidableEq, Repr

/-- An ACTIVE provider record (R124); its requester is the station of the peer entry that holds it. -/
structure Provider where
  position : Nat
  offer : Offer
  activationMs : Nat
  hourStart : Nat
  captures : Nat
  missed : Nat
  /-- origin survey id and event number of the last notice taken -/
  lastNotice : Option (Nat × Nat)
deriving DecidableEq, Repr

/-- A peer's open-offer list with the revision of its frame (7.3). -/
structure ListCopy where
  revision : Nat
  offers : List ListedOffer
deriving DecidableEq, Repr

structure Peer where
  present : Bool
  lastHeard : Nat
  running : Bool
  surveyId : Nat
  revision : Nat
  printer : Bool
  paper : Bool
  copy : Option ListCopy
  spent : Bool
  requester : Requester
  provider : Option Provider
deriving DecidableEq, Repr

/-! ### Frames -/

/-- A frame handed over for the line or by loopback. -/
structure TxFrame where
  kind : FrameKind
  /-- none: broadcast -/
  dest : Option Station
  payload : List Byte
  /-- opening window of a TRIGGER_NOTICE, from which its age is stamped; none once the windows have been renumbered by a
  survey start, and its age is 0 (R26) -/
  openingWindow : Option Nat
  /-- the frame is in transmission (R167) -/
  inTx : Bool
deriving DecidableEq, Repr

structure Link where
  /-- in priority order, within one priority oldest first (R171) -/
  queue : List TxFrame
  /-- bits the station drives for the frame in transmission (R165); empty when none is -/
  txBits : List Bool
  /-- recessive bits in a row read so far while the receiver waits for a free line (R165); none: it does not wait -/
  waitFree : Option Nat
  sent : Nat
  received : Nat
  checkFailures : Nat
  badLengths : Nat
  unknownKinds : Nat
  bitErrors : Nat
  arbitrationLosses : Nat
  dropped : Nat
  silent : Bool
  presenceTimer : Nat
  /-- loopback frames still to deliver within the step, oldest first (log 10) -/
  loopback : List TxFrame
deriving DecidableEq, Repr

/-! ### Print lines (8.6, 12.1) -/

/-- A cell of a print line (12.1). -/
structure LineCell where
  code : Byte
  fontB : Bool
  red : Bool
  underline : Bool
  inverse : Bool
deriving DecidableEq, Repr

/-- Render settings of a report or job (R134). -/
structure Render where
  bankA : Nat
  bankB : Nat
  cellWidth : Nat
  colour : Nat
  energy : Nat
deriving DecidableEq, Repr

/-! ### Report Composer (chapter 8) -/

inductive ComposerState where
  | idle | opening | queued | sending | waitingCredit | finishing
deriving DecidableEq, Repr

/-- Report kinds (12, Codes). -/
inductive ReportKind where
  | site | eventList | eventDetail | harmonicSummary | notes
deriving DecidableEq, Repr

/-- Colour use of a request (R131). -/
inductive ColourUse where
  | asSet | off | on
deriving DecidableEq, Repr

/-- Kind, selection, options and printer choice of a REPORT_REQUEST (R131). -/
structure ReportRequest where
  kind : ReportKind
  event : Nat
  survey : Nat
  fromMs : Nat
  toMs : Nat
  notes : Bool
  colour : ColourUse
  /-- none: ANY -/
  printer : Option Station
deriving DecidableEq, Repr

/-- A record of the report's set (R133). -/
structure SetItem where
  recId : Nat
  /-- the composer has found it missing (R140) -/
  gone : Bool
  /-- its hold has been cleared (R140) -/
  cleared : Bool
deriving DecidableEq, Repr

/-- A line or run of lines still to compose. The first of a report's list is the composition cursor's place: the part
of the report, the record, the line within it and, for a summary, the channel and order. -/
inductive LineJob where
  /-- heading line 1..3 (R142) -/
  | heading (n : Nat)
  /-- column title line of an event list (R143) -/
  | listTitle
  /-- rule line of an event list -/
  | listRule
  /-- an event of a list: its date line when due, then its line -/
  | listEvent (recId : Nat) (notes : List Nat)
  /-- the event's line itself, its date line having been composed -/
  | listEventLine (recId : Nat) (notes : List Nat)
  /-- text line n (from 0) of a note attached to a listed event -/
  | listNote (recId n : Nat)
  /-- line 1..16 of an event detail, with the set's start and end waveforms -/
  | detail (n : Nat) (recId : Nat) (startWave endWave : Option Nat)
  /-- text line n (from 0) of a note in the form of R144; the number serves a missing note -/
  | noteLine (recId number n : Nat)
  /-- a note of a notes report: its context line when due, then its lines; the number serves a missing note -/
  | noteEntry (recId number : Nat)
  /-- a note in the form of R144, from its header line on -/
  | noteHeader (recId number : Nat)
  /-- line 1..15 of a site report, with the header's record id -/
  | site (n : Nat) (recId : Nat)
  /-- a context's line of a site report -/
  | siteContext (recId : Nat)
  /-- count line 1 or 2 of a harmonic summary -/
  | count (n : Nat)
  /-- heading line of a channel of a harmonic summary -/
  | channelHeading (c : Channel)
  /-- line of an order of a channel -/
  | order (c : Channel) (h : Nat)
  /-- the closing line -/
  | closing
deriving DecidableEq, Repr

/-- Figures of one channel of a harmonic summary (R145): m, means and highest values of orders 1..25, mean and highest
THD. -/
structure Figures where
  used : Nat
  means : List Nat
  highest : List Nat
  meanThd : Nat
  highestThd : Nat
deriving DecidableEq, Repr

/-- The composition cursor (chapter 8). -/
structure ReportCursor where
  jobs : List LineJob
  /-- date of the record shown last, as a day number -/
  lastDay : Option Nat
  /-- context path of the note shown last -/
  lastPath : Option (List Nat)
  /-- counts of the count pass: read, used, flagged, no data, gone -/
  counts : List Nat
  figures : Figures
deriving DecidableEq, Repr

structure Composer where
  state : ComposerState
  job : Nat
  request : ReportRequest
  survey : Nat
  idLimit : Nat
  printer : Station
  render : Render
  credit : Nat
  line : Nat
  queuePosition : Option Nat
  paused : Bool
  gone : Nat
  /-- outcome code, 0 none (12, Codes) -/
  lastOutcome : Nat
  set : List SetItem
  cursor : ReportCursor
  surveyId : Nat
  startSeconds : Nat
  openingTimer : Option Nat
  finishingTimer : Option Nat
deriving DecidableEq, Repr

/-! ### Print Unit (chapter 9) -/

inductive JobState where
  | queued | active | paused
deriving DecidableEq, Repr

/-- A print job (9.1). -/
structure Job where
  origin : Station
  number : Nat
  kind : Nat
  render : Render
  estimate : Nat
  state : JobState
  credit : Nat
  expected : Nat
  lastTaken : Bool
  received : Nat
  printed : Nat
deriving DecidableEq, Repr

/-- A line of the line buffer: a report line, or a marker line (no number). -/
structure BufferLine where
  cells : List LineCell
  number : Option Nat
  last : Bool
  double : Bool
deriving DecidableEq, Repr

/-- What the head is doing (9.1): IDLE, PRINTING the oldest line from its next dot row, FEEDING with rows left. -/
inductive HeadState where
  | idle
  | printing (row : Nat)
  | feeding (left : Nat)
deriving DecidableEq, Repr

/-- One strobe of a pass (R162). -/
structure HeadStrobe where
  red : Bool
  group : Nat
  /-- 0 the whole group, 1 its first half, 2 its second half -/
  half : Nat
  micros : Nat
deriving DecidableEq, Repr

/-- The dot row being made: a row of a line or a feed row, its two passes and their strobes (R161, R162). Dot 0 is the
leftmost dot and bit 0. -/
structure DotRow where
  feed : Bool
  black : BitVec 448
  red : BitVec 448
  strobes : List HeadStrobe
deriving DecidableEq, Repr

structure Printer where
  queue : List Job
  buffer : List BufferLine
  head : HeadState
  row : Option DotRow
  motorSteps : Nat
  ready : Bool
  settleTimer : Option Nat
  lineTimer : Option Nat
  linesDiscarded : Nat
  linesMissing : Nat
  cellsDropped : Nat
  jobsPrinted : Nat
  jobsEnded : Nat
deriving DecidableEq, Repr

/-! ### Supply Monitor (chapter 11) -/

inductive SupplyState where
  | normal | holdup | safe
deriving DecidableEq, Repr

/-- Restart causes (R185). -/
inductive RestartCause where
  | cold | supplyReturn | pinReset
deriving DecidableEq, Repr

structure Supply where
  state : SupplyState
  holdUpTimer : Option Nat
  cause : RestartCause
deriving DecidableEq, Repr

/-- Input pins: the straps as read at the last restart, and the levels of SUPPLY-WARN and of the paper sensor. -/
structure Pins where
  straps : Straps
  supplyWarn : Bool
  paper : Bool
deriving DecidableEq, Repr

/-- Retained memory beside the record store. -/
structure Retained where
  /-- the retained seconds counter when it was last set, the tick of that moment, and the phase of its prescaler -/
  secBase : Nat
  secTick : Nat
  secPhase : Nat
  /-- cycle number and survey ms copied at the last cycle start (R6) -/
  cycle : Nat
  clock : Nat
  lastSurvey : Nat
deriving DecidableEq, Repr

/-- The part. -/
structure State where
  pending : List Instr
  now : Nat
  powered : Bool
  freeUses : Nat
  pins : Pins
  retained : Retained
  sampling : Sampling
  clock : SurveyClock
  detector : Detector
  capture : Capture
  harmonic : Harmonic
  store : Store
  notes : Notes
  agreement : Agreement
  peers : Vector Peer 16
  composer : Composer
  printer : Printer
  link : Link
  survey : Survey
  supply : Supply
deriving DecidableEq, Repr

/-- Faults. The spec names nothing that stops the part with a fault (INVENTORY.md, Faults), so there is none, which is
safe: no behaviour of the part is cut off by one. -/
inductive Fault where
deriving DecidableEq, Repr

/-- Refusals. -/
inductive Refusal where
  /-- Raised by exec's arm of a command that has no meaning yet; safe, the run stops there. -/
  | notModelled (mnemonic : String)
deriving DecidableEq, Repr

/-! ### Reset: right after a restart of cause COLD (R19, R41, R60, R78, R100, R113, R129, R146, R164, R179, R185) -/

/-- The defaults of the settings (10.7). -/
def Settings.default : Settings where
  nominal := 50
  declared := 23000
  threshold := 900
  hysteresis := 20
  interruption := 50
  settle := 4
  preCycles := 4
  postCycles := 12
  endCycles := 2
  minutes := 10
  ring := false
  holdUp := 400
  offerCount := 0
  offers := Vector.replicate 6 none
  seek := false
  serve := false
  wants := { channels := 3, pre := 0, post := 1, rate := 1, decimation2 := false }
  bankA := 0
  bankB := 1
  cellWidth := 8
  colour := false
  energy := 1

/-- The Sample Port, Cycle Clock and Window RMS Unit once strobe 0 of cycle `cycle` has been driven at tick `now` after
a restart with nominal period `p` (R19). -/
def Sampling.restarted (p now cycle : Nat) : Sampling where
  outstanding := true
  position := 0
  strobeTick := now
  heldSet := none
  patchedSets := 0
  lateSets := 0
  period := p
  cyclePeriod := p
  cycleStart := now
  cycle := cycle
  accepted := false
  freeRunCount := 4
  reference := none
  armed := false
  lastRef := none
  anchor := none
  assembled := []
  history := []
  latestWindow := 0
  firstCyclePending := false

/-- The detector after a restart that resumes no survey (R41). -/
def Detector.restarted : Detector where
  state := .held
  settleCount := 0
  event := .none
  openingWindow := 0
  openingCycle := 0
  pendingSettle := 0
  nextEvent := 1
  latest := none
  resumeMark := false
  unrecorded := 0
  endAsked := false

/-- The Capture Engine after a restart (R43, R60). -/
def Capture.restarted : Capture where
  ring := []
  slots := Vector.replicate 4 none
  openOrder := 0
  ownRefused := 0
  displaced := 0

/-- The Harmonic Unit after a restart (R78). -/
def Harmonic.restarted : Harmonic where
  interval := none
  midMark := none
  endMark := none
  dropped := 0
  lastInterval := none

/-- The Record Store cleared (R81, R100). -/
def Store.cleared : Store where
  mem := []
  free := List.range' 0 4096
  freeCount := 4096
  dir := []
  idCounter := 1
  writing := false
  cursors := []
  useStamp := 0
  shed := 0
  refused := 0

/-- The Note Unit after a restart that resumes no survey (R113). -/
def Notes.restarted : Notes where
  stack := []
  contexts := 0
  nextNote := 1

/-- The Agreement Unit after a restart, before the first forming (R129). -/
def Agreement.restarted : Agreement where
  list := []
  revision := 0
  pendingOffers := false
  sendLimit := none
  refresh := none

/-- A requester record in NONE (R118, R129). -/
def Requester.none : Requester where
  state := .none
  position := 0
  revision := 0
  offer := Option.none
  mismatch := false
  reason := 0
  activationMs := 0
  retryTimer := Option.none
  answerTimer := Option.none

/-- An absent, empty peer entry (R129, R179). -/
def Peer.empty : Peer where
  present := false
  lastHeard := 0
  running := false
  surveyId := 0
  revision := 0
  printer := false
  paper := false
  copy := none
  spent := false
  requester := Requester.none
  provider := none

/-- An empty composition cursor (R139). -/
def ReportCursor.empty : ReportCursor where
  jobs := []
  lastDay := none
  lastPath := none
  counts := []
  figures := { used := 0, means := [], highest := [], meanThd := 0, highestThd := 0 }

/-- The Report Composer after a restart (R146). DESIGN CHOICE: R146 gives printer paused no value; it reads PRINTING
(log 75, unsafe), and the other items of no stated value are 0 or the default (log 3). -/
def Composer.restarted : Composer where
  state := .idle
  job := 0
  request :=
    { kind := .site, event := 0, survey := 0, fromMs := 0, toMs := 0, notes := false, colour := .asSet, printer := none }
  survey := 0
  idLimit := 0
  printer := 0
  render := { bankA := 0, bankB := 1, cellWidth := 8, colour := 0, energy := 1 }
  credit := 0
  line := 0
  queuePosition := none
  paused := false
  gone := 0
  lastOutcome := 0
  set := []
  cursor := ReportCursor.empty
  surveyId := 0
  startSeconds := 0
  openingTimer := none
  finishingTimer := none

/-- The Print Unit after a restart, its settle timer stopped (R164). -/
def Printer.restarted : Printer where
  queue := []
  buffer := []
  head := .idle
  row := none
  motorSteps := 0
  ready := false
  settleTimer := none
  lineTimer := none
  linesDiscarded := 0
  linesMissing := 0
  cellsDropped := 0
  jobsPrinted := 0
  jobsEnded := 0

/-- The Link Controller after a restart at tick `now`, before the first PRESENCE is handed over (R173, R179). -/
def Link.restarted (now : Nat) : Link where
  queue := []
  txBits := []
  waitFree := none
  sent := 0
  received := 0
  checkFailures := 0
  badLengths := 0
  unknownKinds := 0
  bitErrors := 0
  arbitrationLosses := 0
  dropped := 0
  silent := false
  presenceTimer := now + 1000000
  loopback := []

/-- The first PRESENCE of a part restarted COLD with no straps: STANDBY, 4096 free blocks, revision 0, no printer,
NORMAL, COLD (R173, 12.1). -/
def firstPresence : TxFrame where
  kind := .presence
  dest := none
  payload := [0, 0, 0, 0x10, 0x00, 0, 0, 0, 0, 0]
  openingWindow := none
  inTx := false

/-- The machine right after reset: the part has just made the restart of its first power-up (cause COLD, R185), with no
strap made, SUPPLY-WARN clear and no paper (log 3); strobe 0 of cycle 0 has been driven (R19) and the first PRESENCE
handed over (R173). No command waits. -/
def State.reset : State where
  pending := []
  now := 0
  powered := true
  freeUses := 0
  pins := { straps := { id := 0, prn := false, twoc := false }, supplyWarn := false, paper := false }
  retained := { secBase := 0, secTick := 0, secPhase := 0, cycle := 0, clock := 0, lastSurvey := 0 }
  sampling := Sampling.restarted 20000 0 0
  clock := .holding 0
  detector := Detector.restarted
  capture := Capture.restarted
  harmonic := Harmonic.restarted
  store := Store.cleared
  notes := Notes.restarted
  agreement := Agreement.restarted
  peers := Vector.replicate 16 Peer.empty
  composer := Composer.restarted
  printer := Printer.restarted
  link := { Link.restarted 0 with queue := [firstPresence] }
  survey := { running := false, number := 0, id := 0, startSeconds := 0, settings := Settings.default }
  supply := { state := .normal, holdUpTimer := none, cause := .cold }

end Sys2Proof.Machine
end

