-- ==== Sys2Proof/Machine/Bytes.lean ====
section
/-! DEFINITION. Byte order, field positions, bounded counters and the whole-number arithmetic of the manual
(00, Numbers; 12, R187). -/

namespace Sys2Proof.Machine

/-- A 16-bit saturating counter rises by `n` (00, Numbers). -/
def raise16 (c n : Nat) : Nat := min 65535 (c + n)

/-- A number as one byte. -/
def u8 (n : Nat) : List Byte := [BitVec.ofNat 8 n]

/-- A number as two bytes, most significant first (R187). -/
def u16 (n : Nat) : List Byte := [BitVec.ofNat 8 (n / 256), BitVec.ofNat 8 n]

/-- A number as four bytes, most significant first (R187). -/
def u32 (n : Nat) : List Byte := u16 (n / 65536) ++ u16 n

/-- A sample code as two bytes, two's complement, most significant first (R45, R188). -/
def code16 (c : Int) : List Byte := u16 (BitVec.ofInt 16 c).toNat

/-- A yes/no item as one byte. -/
def flag8 (b : Bool) : List Byte := [if b then 1 else 0]

/-- Byte `i` of a payload or record, counted from 1 (R187); 0 beyond the end. -/
def byteAt (bs : List Byte) (i : Nat) : Nat := (bs.getD (i - 1) 0).toNat

/-- The two-byte field at bytes `i`, `i+1`. -/
def u16At (bs : List Byte) (i : Nat) : Nat := byteAt bs i * 256 + byteAt bs (i + 1)

/-- The four-byte field at bytes `i` to `i+3`. -/
def u32At (bs : List Byte) (i : Nat) : Nat := u16At bs i * 65536 + u16At bs (i + 2)

/-- Bit `n` of byte `i`. -/
def bitAt (bs : List Byte) (i n : Nat) : Bool := (byteAt bs i).testBit n

/-- `n` bytes from byte `i` on. -/
def bytesFrom (bs : List Byte) (i n : Nat) : List Byte := (bs.drop (i - 1)).take n

/-- Bytes filled with 0 to a length: every byte no field occupies is 0 (R188). -/
def padTo (n : Nat) (bs : List Byte) : List Byte := bs ++ List.replicate (n - bs.length) 0

/-- Bytes replaced from byte `i` (counted from 1) on. -/
def patchBytes (bs : List Byte) (i : Nat) (new : List Byte) : List Byte :=
  bs.take (i - 1) ++ new ++ bs.drop (i - 1 + new.length)

/-- The bits of a number, most significant first. -/
def bitsOf : Nat → Nat → List Bool
  | 0, _ => []
  | n + 1, v => v.testBit n :: bitsOf n v

/-- The bits of bytes, each most significant bit first (R165, R187). -/
def bitsOfBytes (bs : List Byte) : List Bool := bs.flatMap fun b => bitsOf 8 b.toNat

/-! ### Channels -/

/-- The three channels in order. -/
def allChannels : List Channel := [.v1, .v2, .v3]

/-- Channel number 1..3 (12.2). -/
def Channel.number : Channel → Nat
  | .v1 => 1
  | .v2 => 2
  | .v3 => 3

/-- The value of one channel. -/
def Tri.get {α : Type} (t : Tri α) : Channel → α
  | .v1 => t.v1
  | .v2 => t.v2
  | .v3 => t.v3

/-- A value for each channel from a function of it. -/
def Tri.of {α : Type} (f : Channel → α) : Tri α := ⟨f .v1, f .v2, f .v3⟩

def Tri.map {α β : Type} (f : α → β) (t : Tri α) : Tri β := ⟨f t.v1, f t.v2, f t.v3⟩

def Tri.zip {α β γ : Type} (f : α → β → γ) (a : Tri α) (b : Tri β) : Tri γ :=
  ⟨f a.v1 b.v1, f a.v2 b.v2, f a.v3 b.v3⟩

def Tri.toList {α : Type} (t : Tri α) : List α := [t.v1, t.v2, t.v3]

/-- Every channel meets a test. -/
def Tri.all {α : Type} (p : α → Bool) (t : Tri α) : Bool := p t.v1 && p t.v2 && p t.v3

/-- Some channel meets a test. -/
def Tri.any {α : Type} (p : α → Bool) (t : Tri α) : Bool := p t.v1 || p t.v2 || p t.v3

/-- A channel set as one byte: bit 0 V1, bit 1 V2, bit 2 V3 (R187). -/
def channelByte (c : ChannelSet) : Nat :=
  (if c.v1 then 1 else 0) + (if c.v2 then 2 else 0) + (if c.v3 then 4 else 0)

/-- The channel set of a byte; bits 3 to 7 are ignored (R187). -/
def channelsOf (b : Nat) : ChannelSet := ⟨b.testBit 0, b.testBit 1, b.testBit 2⟩

/-- The captured channels of a set, in channel order (R45). -/
def channelList (c : ChannelSet) : List Channel := allChannels.filter fun ch => c.get ch

/-- k, the number of channels in a set (R114). -/
def channelCount (c : ChannelSet) : Nat := (channelList c).length

/-- All three channels. -/
def everyChannel : ChannelSet := ⟨true, true, true⟩

/-! ### Arithmetic -/

/-- The bits of a square root, from bit `b - 1` down. -/
def isqrtBits (n : Nat) : Nat → Nat → Nat
  | 0, r => r
  | b + 1, r => isqrtBits n b (if (r + 2 ^ b) * (r + 2 ^ b) ≤ n then r + 2 ^ b else r)

/-- isqrt(x): the largest whole number whose square does not exceed x (00, Numbers). -/
def isqrt (n : Nat) : Nat := isqrtBits n (n.log2 / 2 + 1) 0

/-- Division rounded up (00, Numbers). -/
def ceilDiv (a b : Nat) : Nat := (a + b - 1) / b

/-- The sum of a list. -/
def total (l : List Nat) : Nat := l.foldl (· + ·) 0

/-- The first place, counted from 0, at which a list meets a test. -/
def firstIndex {α : Type} (p : α → Bool) (l : List α) : Option Nat := l.findIdx? p

end Sys2Proof.Machine
end

