-- ==== Sys2Proof/Machine/Flags.lean ====
section
/-! DEFINITION. Flag bytes and state codes of stored records and STATUS frames (12.1, 12.2, R187). -/

namespace Sys2Proof.Machine

/-- Flags of an event record, byte 36 (12.2). -/
def EventFlags.byte (f : EventFlags) : Nat :=
  (if f.cutShort then 1 else 0) + (if f.surveyEnd then 2 else 0) + (if f.invalidSeen then 4 else 0)
    + (if f.followsResume then 8 else 0) + (if f.overrangeSeen then 16 else 0)

/-- The flags an event record's byte 36 holds. -/
def EventFlags.ofByte (b : Nat) : EventFlags where
  cutShort := b.testBit 0
  surveyEnd := b.testBit 1
  invalidSeen := b.testBit 2
  followsResume := b.testBit 3
  overrangeSeen := b.testBit 4

/-- Present bits of an event record, byte 6 (12.2). -/
def presentByte (endMs startId endId : Bool) : Nat :=
  (if endMs then 1 else 0) + (if startId then 2 else 0) + (if endId then 4 else 0)

/-- Flags of a waveform descriptor, byte 36 (12.2). -/
def Descriptor.flagByte (d : Descriptor) : Nat :=
  (if d.clipped then 1 else 0) + (if d.truncated then 2 else 0) + (if d.cutShort then 4 else 0)

/-- Flags of an interval record, byte 15 (12.2). -/
def intervalFlagByte (partialFlag flagged noData : Bool) : Nat :=
  (if partialFlag then 1 else 0) + (if flagged then 2 else 0) + (if noData then 4 else 0)

/-- Capture status codes (12.2). -/
def CaptureStatus.code : CaptureStatus → Nat
  | .none => 0
  | .full => 1
  | .partial_ => 2
  | .shed => 3

/-- Detector state codes: places in the list of 2.1 (R187). -/
def DetectorState.code : DetectorState → Nat
  | .held => 0
  | .quiet => 1
  | .event => 2
  | .settle => 3

/-- Slot kind codes: places in the list of 3.2 (R187). -/
def SlotKind.code : SlotKind → Nat
  | .ownStart => 0
  | .ownEnd => 1
  | .companion => 2

/-- Requester state codes: places in the table of R118 (R187). -/
def RequesterState.code : RequesterState → Nat
  | .none => 0
  | .noOffer => 1
  | .requested => 2
  | .active => 3
  | .rejected => 4

/-- Composer state codes: places in the list of chapter 8 (R187). -/
def ComposerState.code : ComposerState → Nat
  | .idle => 0
  | .opening => 1
  | .queued => 2
  | .sending => 3
  | .waitingCredit => 4
  | .finishing => 5

/-- Report kind codes (12, Codes). -/
def ReportKind.code : ReportKind → Nat
  | .site => 1
  | .eventList => 2
  | .eventDetail => 3
  | .harmonicSummary => 4
  | .notes => 5

/-- Job state codes: places in the list of 9.1 (R187). -/
def JobState.code : JobState → Nat
  | .queued => 0
  | .active => 1
  | .paused => 2

/-- Head state codes: places in the list of 9.1 (R187). -/
def HeadState.code : HeadState → Nat
  | .idle => 0
  | .printing _ => 1
  | .feeding _ => 2

/-- Printer state of a PRINT_STATE: 0 PAUSED, 1 PRINTING (12.1). -/
def pausedCode (paused : Bool) : Nat := if paused then 0 else 1

/-- The attribute byte of a cell: font B, red, underline, inverse; bits 4 to 7 sent as 0 (12.1). -/
def LineCell.attrByte (c : LineCell) : Nat :=
  (if c.fontB then 1 else 0) + (if c.red then 2 else 0) + (if c.underline then 4 else 0) + (if c.inverse then 8 else 0)

/-- The cell of a code and an attribute byte; bits 4 to 7 are ignored (R187). -/
def LineCell.ofBytes (code attr : Byte) : LineCell where
  code := code
  fontB := attr.getLsbD 0
  red := attr.getLsbD 1
  underline := attr.getLsbD 2
  inverse := attr.getLsbD 3

end Sys2Proof.Machine
end

