-- ==== Sys2Proof/Config.lean ====
section
/-! DEFINITION. What is fixed for one part, and the free values: what the manual leaves open. An opaque constant
has no body, so nothing can be proved of its value, and a statement about it holds whatever it is. -/

namespace Sys2Proof.Config

/-- Glyphs of the font ROM by bank, character code and row, leftmost dot most significant. Their contents lie outside
the manual's scope (09, 9.5), but for the space, which is 8 dots off (R151, R160); log 19. -/
opaque fontDots : Nat → Nat → Nat → BitVec 8

/-- Phase of the retained seconds counter's prescaler after the counter is set or cleared, taken modulo one second
(11, R184 and R185 give none); log 9. The argument is the number of free values taken before. -/
opaque secondsPhase : Nat → Nat

/-- Start column wanted for an item of a report line for which chapter 08 gives the items and no cells: line, item.
The composer holds it within the 49 cells of R142; log 18. -/
opaque itemColumn : Nat → Nat → Nat

/-- Character of a cell of the event list's column title line, whose words R143 does not give; log 18. -/
opaque titleCode : Nat → Nat

/-- Whether a job opened with a cell width other than 8 or 9 is printed 9 dots wide; log 20. -/
opaque widthOutside : Nat → Bool

/-- Black strobe time, in microseconds, of an energy level above 3 (R162 names levels 0 to 3); log 20. -/
opaque strobeOutside : Nat → Nat

/-- The two STATUS bytes that hold an id counter of 65536, which two bytes cannot hold (R175, R187); log 21. -/
opaque fullIdCounter : Nat → Nat

end Sys2Proof.Config
end

