-- ==== Sys2Proof/Machine/Ops.lean ====
section
/-! DEFINITION. Operations every block shares: the memory, the clocks and timers, the frames of the Survey Link, the
transmit queue, the answers to requests. -/

namespace Sys2Proof.Machine

/-! ### The store's memory -/

/-- The byte at an address; an address not listed reads 0 (log 8). -/
def Memory.readByte (m : Memory) (a : Nat) : Byte := (m.find? fun c => c.1 == a).elim 0 Prod.snd

/-- `n` bytes from an address on. -/
def Memory.read (m : Memory) (a n : Nat) : List Byte := (List.range' a n).map (Memory.readByte m)

/-- The cells of bytes laid out from an address on; a byte 0 is not listed. -/
def Memory.cells (a : Nat) : List Byte → Memory
  | [] => []
  | b :: bs => if b = 0 then Memory.cells (a + 1) bs else (a, b) :: Memory.cells (a + 1) bs

/-- Bytes written from an address on. -/
def Memory.write (m : Memory) (a : Nat) (bs : List Byte) : Memory :=
  m.filter (fun c => decide (c.1 < a)) ++ Memory.cells a bs ++ m.filter (fun c => decide (a + bs.length ≤ c.1))

/-- The canonical form: addresses strictly rising, no byte 0 listed. -/
def Memory.wf : Memory → Bool
  | [] => true
  | [c] => decide (c.2 ≠ 0)
  | c :: d :: rest => decide (c.2 ≠ 0) && decide (c.1 < d.1) && Memory.wf (d :: rest)

/-- Bytes per block (05, 5.1). -/
def blockBytes : Nat := 128

/-- Bytes laid end to end over blocks in chain order (12.2). -/
def Memory.writeChain (m : Memory) : List Nat → List Byte → Memory
  | [], _ => m
  | b :: bs, bytes => Memory.writeChain (Memory.write m (blockBytes * b) (bytes.take blockBytes)) bs (bytes.drop blockBytes)

/-- A record's bytes over its blocks in chain order (12.2). -/
def Memory.readChain (m : Memory) (chain : List Nat) : List Byte :=
  chain.flatMap fun b => Memory.read m (blockBytes * b) blockBytes

/-! ### Clocks and timers -/

/-- The survey clock as it reads at a tick (R12). -/
def SurveyClock.at (c : SurveyClock) (tick : Nat) : Nat :=
  match c with
  | .holding ms => ms
  | .counting start began => min 4294967295 (start + (tick - began) / 1000)

/-- The survey clock value current at the moment (R12). -/
def surveyMs (s : State) : Nat := s.clock.at s.now

/-- The survey clock is counting (R20). -/
def SurveyClock.isCounting : SurveyClock → Bool
  | .holding _ => false
  | .counting _ _ => true

/-- Survey ms of a tick by the rule of the survey clock; 0 when it lies before the clock began to count (R46). -/
def SurveyClock.msOf (c : SurveyClock) (tick : Nat) : Nat :=
  match c with
  | .holding _ => 0
  | .counting _ began => if tick < began then 0 else c.at tick

/-- The retained seconds counter as it reads now (R184). DESIGN CHOICE: it counts without bound; the manual gives the
counter no width (log 71, unsafe). -/
def retainedSeconds (s : State) : Nat :=
  s.retained.secBase + (s.now - s.retained.secTick + s.retained.secPhase) / 1000000

/-- The retained seconds counter is set (R177 step 4, R185). Its prescaler's phase is a free value (log 9). -/
def setRetainedSeconds (v : Nat) (s : State) : State :=
  { s with
    retained := { s.retained with
      secBase := v
      secTick := s.now
      secPhase := Config.secondsPhase s.freeUses % 1000000 }
    freeUses := s.freeUses + 1 }

/-- Base ticks of a time in ms. -/
def msTicks (ms : Nat) : Nat := 1000 * ms

/-- A timer of `ms` started now. -/
def startTimer (s : State) (ms : Nat) : Option Nat := some (s.now + msTicks ms)

/-- What a timer's expiry does: nothing when the timer does not run; otherwise the moment is the timer's expiry, or now
when the model's clock already stands later (log 2). -/
def onExpiry (timer : Option Nat) (f : State → State) (s : State) : State :=
  match timer with
  | none => s
  | some d => f { s with now := max s.now d }

/-- A command acts on a part that is running; a stopped part acts on nothing (R184, log 5). -/
def whileRunning (f : State → State) (s : State) : Host.Outcome State Fault Refusal :=
  .next (if s.powered then f s else s)

/-- What follows an outcome: from a next state the second act goes on, a fault or a refusal stands. -/
def andThen (o : Host.Outcome State Fault Refusal) (act : State → Host.Outcome State Fault Refusal) :
    Host.Outcome State Fault Refusal :=
  match o with
  | .next s => act s
  | .fault r => .fault r
  | .refused r => .refused r

/-! ### Stations -/

/-- This station's number, from the straps (R179). -/
def ownStation (s : State) : Station := s.pins.straps.id.castLE (by decide)

/-- A station's peer entry. -/
def peer (s : State) (st : Station) : Peer := s.peers[st]

/-- A station's peer entry replaced. -/
def setPeer (st : Station) (p : Peer) (s : State) : State := { s with peers := s.peers.set st p }

/-- A station's peer entry changed. -/
def modifyPeer (st : Station) (f : Peer → Peer) (s : State) : State := setPeer st (f (peer s st)) s

/-- Paper present as PRESENCE carries it: the paper sensor at a station strapped PRN, no elsewhere (R147). -/
def paperPresent (s : State) : Bool := s.pins.straps.prn && s.pins.paper

/-- The survey id as PRESENCE carries it: 0 in STANDBY (R173). -/
def presenceSurveyId (s : State) : Nat := if s.survey.running then s.survey.id else 0

/-- The entry for this station's own number: always present, with this station's own values as its PRESENCE carries
them (R173). Its last-heard time and its agreement items are those stored, which no rule gives (log 65). -/
def ownEntry (s : State) : Peer :=
  { peer s (ownStation s) with
    present := true
    running := s.survey.running
    surveyId := presenceSurveyId s
    revision := s.agreement.revision
    printer := s.pins.straps.prn
    paper := paperPresent s }

/-- The peer table's entry for a station number, as any block reads it (R173): what the table stores of another station,
and this station's own values for its own number. -/
def peerEntry (s : State) (st : Station) : Peer := if st = ownStation s then ownEntry s else peer s st

/-- A station is present; this station always is (R173). -/
def isPresent (s : State) (st : Station) : Bool := (peerEntry s st).present

/-! ### Codes of chapter 12 -/

/-- Kind numbers (12.1). -/
def FrameKind.code : FrameKind → Nat
  | .triggerNotice => 1
  | .offers => 2
  | .agreeRequest => 3
  | .agreeAccept => 4
  | .agreeReject => 5
  | .agreeEnd => 6
  | .jobOpen => 7
  | .jobQueued => 8
  | .printGo => 9
  | .printLine => 10
  | .printState => 11
  | .printEnd => 12
  | .jobCancel => 13
  | .surveySet => 14
  | .surveyStart => 15
  | .surveyEnd => 16
  | .statusQuery => 17
  | .fetchSetup => 18
  | .fetch => 19
  | .discard => 20
  | .contextOpen => 21
  | .contextClose => 22
  | .noteAdd => 23
  | .noteStrike => 24
  | .reportRequest => 25
  | .reportCancel => 26
  | .answer => 27
  | .status => 28
  | .fetchData => 29
  | .presence => 30

/-- The priority of each kind (10.4). -/
def FrameKind.priority : FrameKind → Nat
  | .triggerNotice => 0
  | .offers | .agreeRequest | .agreeAccept | .agreeReject | .agreeEnd => 1
  | .jobOpen | .jobCancel | .jobQueued | .printGo | .printState | .printEnd => 2
  | .printLine => 4
  | .presence => 5
  | .surveySet | .surveyStart | .surveyEnd | .statusQuery | .fetchSetup | .fetch | .discard | .contextOpen
  | .contextClose | .noteAdd | .noteStrike | .reportRequest | .reportCancel | .answer | .status | .fetchData => 3

/-- Refusal reasons and their codes (12.1). -/
inductive Reason where
  | badField | locked | running | needsErase | notRunning | storeFull | safe | stackFull | stackEmpty | countFull
  | noEvent | pinFull | shedWaveform | noNote | noRecord | wrongKind | open_ | held | pinned | noSetup | gone | busy
  | noSurvey | noPrinter | notActive
deriving DecidableEq, Repr

def Reason.code : Reason → Nat
  | .badField => 1
  | .locked => 2
  | .running => 3
  | .needsErase => 4
  | .notRunning => 5
  | .storeFull => 6
  | .safe => 7
  | .stackFull => 8
  | .stackEmpty => 9
  | .countFull => 10
  | .noEvent => 11
  | .pinFull => 12
  | .shedWaveform => 13
  | .noNote => 14
  | .noRecord => 15
  | .wrongKind => 16
  | .open_ => 17
  | .held => 18
  | .pinned => 19
  | .noSetup => 20
  | .gone => 21
  | .busy => 22
  | .noSurvey => 23
  | .noPrinter => 24
  | .notActive => 25

def SupplyState.code : SupplyState → Nat
  | .normal => 0
  | .holdup => 1
  | .safe => 2

def RestartCause.code : RestartCause → Nat
  | .cold => 0
  | .supplyReturn => 1
  | .pinReset => 2

/-- Survey state code (12, Codes). -/
def surveyStateCode (running : Bool) : Nat := if running then 1 else 0

/-! ### Frames on the line (R165, R166) -/

/-- One bit taken into the check value (R166). -/
def crcBit (v : BitVec 8) (b : Bool) : BitVec 8 :=
  let shifted := v <<< (1 : Nat)
  if (v.getLsbD 7 ^^ b) then shifted ^^^ 0x07#8 else shifted

/-- The check value of a run of bits: CRC-8, polynomial x^8 + x^2 + x + 1, starting from 0 (R166). -/
def crc8 (bits : List Bool) : BitVec 8 := bits.foldl crcBit 0

/-- The bits the check byte covers: kind, broadcast, destination, length, payload (R166). -/
def checkedBits (kind : Nat) (broadcast : Bool) (dest : Nat) (length : Nat) (payload : List Byte) : List Bool :=
  bitsOf 5 kind ++ [broadcast] ++ bitsOf 4 dest ++ bitsOf 8 length ++ bitsOfBytes payload

/-- Stuffing: one bit of the opposite level after every run of five equal bits, the inserted bit counting toward the
next run (R165). `run` equal bits of level `level` came before. -/
def stuffBits (level : Bool) (run : Nat) : List Bool → List Bool
  | [] => []
  | b :: bs =>
    let run' := if b == level then run + 1 else 1
    if run' = 5 then b :: (!b) :: stuffBits (!b) 1 bs else b :: stuffBits b run' bs

/-- The bits of a frame as driven: start to check stuffed, then 10 recessive close bits (R165). -/
def frameBits (own : Station) (f : TxFrame) : List Bool :=
  let checked := checkedBits f.kind.code f.dest.isNone ((f.dest.map Fin.val).getD 0) f.payload.length f.payload
  let body := [false] ++ bitsOf 3 f.kind.priority ++ bitsOf 4 own.val ++ checked ++ bitsOf 8 (crc8 checked).toNat
  stuffBits true 0 body ++ List.replicate 10 true

/-! ### The transmit queue (R171) -/

/-- A frame joins the queue behind every frame of its priority or a lower number (R171). -/
def joinQueue (f : TxFrame) : List TxFrame → List TxFrame
  | [] => [f]
  | g :: gs => if g.kind.priority ≤ f.kind.priority then g :: joinQueue f gs else f :: g :: gs

/-- A queued PRESENCE that is not in transmission (R171). -/
def isIdlePresence (g : TxFrame) : Bool := g.kind == .presence && !g.inTx

/-- The last frame a test picks is replaced. -/
def replaceLast (p : TxFrame → Bool) (f : TxFrame) : List TxFrame → List TxFrame
  | [] => []
  | g :: gs => if gs.any p then g :: replaceLast p f gs else if p g then f :: gs else g :: gs

/-- The newest frame not in transmission of the greatest priority number, and the queue without it: the last such frame
of the queue (R171). -/
def lastIdle : List TxFrame → Option (TxFrame × List TxFrame)
  | [] => none
  | g :: gs =>
    match lastIdle gs with
    | some (h, rest) => some (h, g :: rest)
    | none => if g.inTx then none else some (g, gs)

/-- A frame handed to the transmit queue, and whether the queue took it (R171, R172). Where a lost attempt left two
PRESENCE frames waiting, a new one takes the place of the newer (log 58). -/
def Link.handOver (l : Link) (f : TxFrame) : Link × Bool :=
  if l.silent then ({ l with dropped := raise16 l.dropped 1 }, false)
  else if f.kind == .presence && l.queue.any isIdlePresence then
    ({ l with queue := replaceLast isIdlePresence f l.queue }, true)
  else if l.queue.length < 16 then ({ l with queue := joinQueue f l.queue }, true)
  else
    match lastIdle l.queue with
    | some (g, rest) =>
      if f.kind.priority < g.kind.priority then
        ({ l with queue := joinQueue f rest, dropped := raise16 l.dropped 1 }, true)
      else ({ l with dropped := raise16 l.dropped 1 }, false)
    | none => ({ l with dropped := raise16 l.dropped 1 }, false)

/-- A frame newly formed by a block. -/
def newFrame (kind : FrameKind) (dest : Option Station) (payload : List Byte) : TxFrame :=
  { kind := kind, dest := dest, payload := payload, openingWindow := none, inTx := false }

/-- The windows are renumbered at a survey start: a notice still queued carries age 0 from now on (R26). -/
def Link.forgetOpenings (l : Link) : Link := { l with queue := l.queue.map fun f => { f with openingWindow := none } }

/-- A block hands a frame over: one addressed to this station passes by loopback (R170), any other goes to the transmit
queue. -/
def send (kind : FrameKind) (dest : Station) (payload : List Byte) (s : State) : State :=
  let f := newFrame kind (some dest) payload
  if dest = ownStation s then { s with link := { s.link with loopback := s.link.loopback ++ [f] } }
  else { s with link := (s.link.handOver f).1 }

/-- A block hands a broadcast frame to the transmit queue. -/
def broadcast (kind : FrameKind) (payload : List Byte) (s : State) : State :=
  { s with link := (s.link.handOver (newFrame kind none payload)).1 }

/-- Frames of priority 4 and 5 are held back in HOLDUP and SAFE (R171). -/
def heldBack (s : State) (f : TxFrame) : Bool := s.supply.state != .normal && decide (4 ≤ f.kind.priority)

/-! ### Answers (R174) -/

/-- What a request is answered. -/
inductive Reply where
  | accepted (result recId : Nat)
  | clamped (index result recId : Nat)
  | refused (reason : Reason) (index : Nat)
deriving DecidableEq, Repr

/-- The payload of an ANSWER (12.1). -/
def Reply.payload (tag : Byte) (kind : FrameKind) : Reply → List Byte
  | .accepted result recId => [tag] ++ u8 kind.code ++ [0, 0, 0] ++ u16 result ++ u16 recId
  | .clamped index result recId => [tag] ++ u8 kind.code ++ [1, 0] ++ u8 index ++ u16 result ++ u16 recId
  | .refused reason index => [tag] ++ u8 kind.code ++ [2] ++ u8 reason.code ++ u8 index ++ [0, 0, 0, 0]

/-- A request's answer goes to its sender (R174). -/
def answer (f : RxFrame) (kind : FrameKind) (r : Reply) (s : State) : State :=
  send .answer f.sender (r.payload (f.payload.headD 0) kind) s

/-- The index of the first byte missing or in excess, when a payload has not the length its kind requires (R174). -/
def lengthFault (have_ need : Nat) : Option Nat :=
  if have_ < need then some (have_ + 1) else if need < have_ then some (need + 1) else none

/-- A console request of a fixed payload length: ignored as a broadcast (R174), refused BAD_FIELD when its length is
wrong (R174, R187), acted on otherwise. -/
def request (kind : FrameKind) (need : Nat) (f : RxFrame) (act : State → State) (s : State) : State :=
  if f.broadcast then s
  else
    match lengthFault f.payload.length need with
    | some i => answer f kind (.refused .badField i) s
    | none => act s

end Sys2Proof.Machine
end

