-- ==== Sys2Proof/Machine/Offers.lean ====
section
/-! DEFINITION. The Agreement Unit's shared operations (chapter 7): cost of an offer, the forming of the open-offer
list, give-back, the sending of OFFERS, the requester record and the same-survey relation. The Record Store calls the
forming at every change of its free count (R81). -/

namespace Sys2Proof.Machine

/-! ### Offers -/

/-- The cost of an offer in blocks (R114). -/
def Offer.cost (o : Offer) : Nat :=
  if o.decimation = 1 then channelCount o.channels * (o.pre + o.post)
  else channelCount o.channels * ceilDiv (o.pre + o.post) 2

/-- An offer is open at a free count (R114). -/
def Offer.isOpen (o : Offer) (free : Nat) : Bool := 4 * o.cost + 64 ≤ free

/-- The offer table: the first offer-count offers of G5, each with its position; an offer never set is none (R176,
log 26). -/
def offerTable (g : Settings) : List ListedOffer :=
  ((g.offers.toList.take g.offerCount).zipIdx 1).filterMap fun x => x.1.map fun o => { position := x.2, offer := o }

/-- The open-offer list as it is to be formed now (R115). -/
def openOffers (s : State) : List ListedOffer :=
  if s.survey.running && s.survey.settings.serve && !s.link.silent then
    (offerTable s.survey.settings).filter fun l => l.offer.isOpen s.store.freeCount
  else []

/-- An offer's five bytes: channels, pre, post, decimation, rate (12.1). -/
def Offer.bytes (o : Offer) : List Byte :=
  u8 (channelByte o.channels) ++ u8 o.pre ++ u8 o.post ++ u8 o.decimation ++ u8 o.rate

/-- The offer of five bytes from byte `i` on (12.1). -/
def Offer.ofBytes (bs : List Byte) (i : Nat) : Offer where
  channels := channelsOf (byteAt bs i)
  pre := byteAt bs (i + 1)
  post := byteAt bs (i + 2)
  decimation := byteAt bs (i + 3)
  rate := byteAt bs (i + 4)

/-- An entry of an OFFERS frame, six bytes (12.1). -/
def ListedOffer.bytes (l : ListedOffer) : List Byte := u8 l.position ++ l.offer.bytes

/-- The payload of an OFFERS: survey id, revision, entry count, entries (12.1). -/
def offersPayload (s : State) : List Byte :=
  u16 s.survey.id ++ u16 s.agreement.revision ++ u8 s.agreement.list.length
    ++ s.agreement.list.flatMap ListedOffer.bytes

/-! ### OFFERS and the send limit (R116) -/

/-- An OFFERS is handed over: the send limit and the refresh time start afresh (R116). -/
def handOverOffers (s : State) : State :=
  let s := broadcast .offers (offersPayload s) s
  { s with agreement := { s.agreement with
      pendingOffers := false, sendLimit := startTimer s 1000, refresh := startTimer s 10000 } }

/-- The send limit is running (R116). -/
def limitRuns (s : State) : Bool := s.agreement.sendLimit.any fun d => decide (s.now < d)

/-- An OFFERS falls due: it is handed over, or waits for the send limit. None is sent in STANDBY or while LINK_SILENT is
set (R116). -/
def offersDue (s : State) : State :=
  if s.survey.running && !s.link.silent then
    if limitRuns s then { s with agreement := { s.agreement with pendingOffers := true } } else handOverOffers s
  else s

/-! ### AGREE_END (12.1) -/

/-- Reasons of an AGREE_END (12, Codes). -/
inductive EndReason where
  | givenBack | surveyEnd | notHeld
deriving DecidableEq, Repr

def EndReason.code : EndReason → Nat
  | .givenBack => 1
  | .surveyEnd => 2
  | .notHeld => 3

/-- The payload of an AGREE_END: position, role (0 PROVIDER, 1 REQUESTER), reason (12.1). -/
def agreeEndPayload (position role : Nat) (r : EndReason) : List Byte := u8 position ++ u8 role ++ u8 r.code

/-! ### Forming and give-back (R115, R126) -/

/-- Ends the provider record of one station when it rests on a position taken out; AGREE_END GIVEN_BACK goes to its
requester unless LINK_SILENT is set (R126, R128). -/
def giveBackOne (gone : List Nat) (s : State) (st : Station) : State :=
  match (peer s st).provider with
  | none => s
  | some p =>
    if gone.contains p.position then
      let s := modifyPeer st (fun q => { q with provider := none }) s
      if s.link.silent then s else send .agreeEnd st (agreeEndPayload p.position 0 .givenBack) s
    else s

/-- Every provider record that rests on a position taken out of the list ends at once (R126). -/
def giveBack (gone : List Nat) (s : State) : State := allStations.foldl (giveBackOne gone) s

/-- The positions of a list. -/
def positions (l : List ListedOffer) : List Nat := l.map ListedOffer.position

/-- The list replaced by the one formed now, with the agreements given back that rest on an offer taken out
(R115, R126). -/
def replaceList (s : State) : State :=
  let gone := (positions s.agreement.list).filter fun p => !(positions (openOffers s)).contains p
  giveBack gone { s with agreement := { s.agreement with list := openOffers s } }

/-- The revision rises by 1, from 65535 to 0 (R115). -/
def raiseRevision (s : State) : State :=
  { s with agreement := { s.agreement with revision := (s.agreement.revision + 1) % 65536 } }

/-- The open-offer list is formed afresh: a changed set of positions raises the revision, gives back and makes an OFFERS
due (R115, R116, R126). -/
def formOffers (s : State) : State :=
  if positions (openOffers s) = positions s.agreement.list then replaceList s
  else offersDue (replaceList (raiseRevision s))

/-! ### Same survey and the requester record (R117, R118) -/

/-- A peer is another recorder station (00, Terms; log 24). -/
def isPeer (s : State) (st : Station) : Bool := decide (st.val < 8) && st != ownStation s

/-- A peer is in the same survey as this station (R117). -/
def sameSurvey (s : State) (st : Station) : Bool :=
  isPeer s st && (peer s st).present && (peer s st).running && s.survey.running
    && (peer s st).surveyId == s.survey.id

/-- A requester record in NO_OFFER, its retry timer started (R118). -/
def enterNoOffer (s : State) (r : Requester) : Requester :=
  { r with state := .noOffer, retryTimer := startTimer s 5000, answerTimer := none }

/-- Both records toward a peer end silently (R117). -/
def leaveSurvey (st : Station) (s : State) : State :=
  modifyPeer st (fun p => { p with requester := Requester.none, provider := none }) s

/-- A peer comes into the same survey: the requester record starts in NO_OFFER when the seek flag is on and in NONE
otherwise, the provider record free (R117, R118). A provider record accepted before then is freed as well (log 51). -/
def enterSurvey (st : Station) (s : State) : State :=
  modifyPeer st (fun p => { p with
    requester := if s.survey.settings.seek then enterNoOffer s Requester.none else Requester.none
    provider := none }) s

/-- After a peer's items changed: it left, came into, or stayed in or out of the same survey (R117). The records of a
peer that was not in the same survey stand (log 51). -/
def surveyMoved (before : Bool) (st : Station) (s : State) : State :=
  if before && !sameSurvey s st then leaveSurvey st s
  else if !before && sameSurvey s st then enterSurvey st s
  else s

/-- An offer meets all minima of the want spec (7.4). -/
def meetsMinima (w : Wants) (o : Offer) : Bool :=
  decide (w.channels ≤ channelCount o.channels) && decide (w.pre ≤ o.pre) && decide (w.post ≤ o.post)
    && decide (w.rate ≤ o.rate) && (o.decimation == 1 || (o.decimation == 2 && w.decimation2))

/-- An offer whose channel count and decimation will do (R119 step 2). -/
def nearlyMeets (w : Wants) (o : Offer) : Bool :=
  decide (w.channels ≤ channelCount o.channels) && (o.decimation == 1 || (o.decimation == 2 && w.decimation2))

/-- The entry with the greatest pre + post, the earliest of equals (R119 step 2). -/
def longest : List ListedOffer → Option ListedOffer
  | [] => none
  | l :: ls =>
    match longest ls with
    | none => some l
    | some m => if l.offer.pre + l.offer.post < m.offer.pre + m.offer.post then some m else some l

/-- The offer selection picks from a list, and whether with mismatch (R119). -/
def chooseOffer (w : Wants) (ls : List ListedOffer) : Option (ListedOffer × Bool) :=
  match ls.find? (fun l => meetsMinima w l.offer) with
  | some l => some (l, false)
  | none =>
    match longest (ls.filter fun l => nearlyMeets w l.offer) with
    | some l => some (l, true)
    | none => ls.head?.map fun l => (l, true)

/-- The list a selection may use: a copy that is not spent and whose revision equals the peer's presence revision
(R118). -/
def usableOffers (p : Peer) : List ListedOffer :=
  match p.copy with
  | some c => if !p.spent && c.revision == p.revision then c.offers else []
  | none => []

/-- Selection (R118, R119, R120): a request is queued, or the record goes to NO_OFFER with its retry timer started
again. No selection runs while LINK_SILENT is set (R128). -/
def selectOffer (st : Station) (s : State) : State :=
  if s.link.silent then s
  else
    match chooseOffer s.survey.settings.wants (usableOffers (peer s st)) with
    | none => modifyPeer st (fun p => { p with requester := enterNoOffer s p.requester }) s
    | some (l, mismatch) =>
      let revision := (peer s st).revision
      let s := send .agreeRequest st (u16 s.survey.id ++ u8 l.position ++ u16 revision) s
      modifyPeer st (fun p => { p with requester := { p.requester with
        state := .requested
        position := l.position
        revision := revision
        mismatch := mismatch
        retryTimer := none
        answerTimer := startTimer s 500 } }) s

/-! ### LINK_SILENT (R172, R128) -/

/-- Every provider record becomes free and every requester record NONE, with nothing sent (R128). -/
def dropAgreements (s : State) : State :=
  { s with peers := s.peers.map fun p => { p with requester := Requester.none, provider := none } }

/-- LINK_SILENT is set: the transmit queue is emptied, a frame in transmission abandoned, the open-offer list formed
empty and every agreement ended (R172, R128). -/
def setLinkSilent (s : State) : State :=
  dropAgreements (formOffers { s with link := { s.link with silent := true, queue := [], txBits := [] } })

end Sys2Proof.Machine
end

