-- ==== Sys2Proof/Machine/Records.lean ====
section
/-! DEFINITION. The byte layouts of stored records (12.2, R188) and of the settings groups (12.1). -/

namespace Sys2Proof.Machine

/-- A number that may be absent: 0 when absent (R188). -/
def orZero (o : Option Nat) : Nat := o.getD 0

/-! ### EVENT -/

/-- The channel with the lowest minimum residual, the lower number winning a tie, as 1..3 (R34). -/
def worstChannel (m : Tri Nat) : Nat :=
  if m.v1 ≤ m.v2 && m.v1 ≤ m.v3 then 1 else if m.v2 ≤ m.v3 then 2 else 3

/-- The bytes of an EVENT record (12.2): worst channel 0 while it is open. -/
def EventWork.bytes (w : EventWork) (worst pins : Nat) : List Byte :=
  padTo 128 (u16 w.number ++ u16 w.survey ++ u8 (if w.interruption then 1 else 0)
    ++ u8 (presentByte w.endMs.isSome w.startId.isSome w.endId.isSome)
    ++ u32 w.startMs ++ u32 (orZero w.endMs) ++ u16 w.duration ++ u16 w.interruptionWindows
    ++ u16 w.minRes.v1 ++ u16 w.minRes.v2 ++ u16 w.minRes.v3 ++ u8 worst ++ u8 (channelByte w.involved)
    ++ u8 w.relapses ++ u8 w.startStatus.code ++ u8 w.endStatus.code ++ u16 (orZero w.startId) ++ u16 (orZero w.endId)
    ++ flag8 w.notice ++ u8 pins ++ u8 w.flags.byte)

/-- Three two-byte fields from byte `i` on. -/
def tri16At (bs : List Byte) (i : Nat) : Tri Nat := ⟨u16At bs i, u16At bs (i + 2), u16At bs (i + 4)⟩

/-- An optional field, absent when its present bit is clear (R188). -/
def presentAt (bs : List Byte) (bit v : Nat) : Option Nat := if bitAt bs 6 bit then some v else none

/-! ### NOTE and CONTEXT -/

/-- The bytes of a NOTE record (12.2). -/
def noteBytes (number time : Nat) (author : Station) (path : List Nat) (attached : Option Nat) (text : List Byte) :
    List Byte :=
  padTo 128 (u16 number ++ u32 time ++ u8 author.val ++ u8 path.length ++ [0] ++ u16 (orZero attached)
    ++ padTo 6 (path.flatMap u8) ++ u8 text.length ++ text)

/-- The bytes of a CONTEXT record (12.2). -/
def contextBytes (number : Nat) (path : List Nat) (author : Station) (time : Nat) (label : List Byte) : List Byte :=
  padTo 128 (u8 number ++ u8 path.length ++ padTo 5 (path.flatMap u8) ++ u8 author.val ++ u32 time
    ++ u8 label.length ++ label)

/-- A path of `n` entries from byte `i` on. -/
def pathAt (bs : List Byte) (i n : Nat) : List Nat := (bytesFrom bs i n).map BitVec.toNat

/-- The context path of a NOTE record. -/
def notePath (bs : List Byte) : List Nat := pathAt bs 12 (byteAt bs 8)

/-- The text of a NOTE record. -/
def noteText (bs : List Byte) : List Byte := bytesFrom bs 19 (byteAt bs 18)

/-- The label of a CONTEXT record. -/
def contextLabel (bs : List Byte) : List Byte := bytesFrom bs 14 (byteAt bs 13)

/-! ### Settings (10.7, 12.1) -/

/-- An offer's five bytes; an offer never set reads 0 (log 26). -/
def offerSettingBytes : Option Offer → List Byte
  | some o => o.bytes
  | none => [0, 0, 0, 0, 0]

/-- The offer of five bytes; an empty channel set is an offer never set (log 26). -/
def offerSettingOf (bs : List Byte) (i : Nat) : Option Offer :=
  if byteAt bs i % 8 = 0 then none else some (Offer.ofBytes bs i)

def groupBytes1 (g : Settings) : List Byte := u8 g.nominal ++ u16 g.declared

def groupBytes2 (g : Settings) : List Byte := u16 g.threshold ++ u8 g.hysteresis ++ u16 g.interruption ++ u8 g.settle

def groupBytes3 (g : Settings) : List Byte := u8 g.preCycles ++ u8 g.postCycles ++ u8 g.endCycles

def groupBytes4 (g : Settings) : List Byte := u8 g.minutes ++ flag8 g.ring ++ u16 g.holdUp

def groupBytes5 (g : Settings) : List Byte := u8 g.offerCount ++ g.offers.toList.flatMap offerSettingBytes

def groupBytes6 (g : Settings) : List Byte :=
  flag8 g.seek ++ flag8 g.serve ++ u8 g.wants.channels ++ u8 g.wants.pre ++ u8 g.wants.post ++ u8 g.wants.rate
    ++ flag8 g.wants.decimation2

def groupBytes7 (g : Settings) : List Byte :=
  u8 g.bankA ++ u8 g.bankB ++ u8 g.cellWidth ++ flag8 g.colour ++ u8 g.energy

/-- The values of a group, every field in the order and width of the table of settings (12.1). -/
def groupBytes (g : Settings) : Nat → List Byte
  | 1 => groupBytes1 g
  | 2 => groupBytes2 g
  | 3 => groupBytes3 g
  | 4 => groupBytes4 g
  | 5 => groupBytes5 g
  | 6 => groupBytes6 g
  | 7 => groupBytes7 g
  | _ => []

/-! ### HEADER -/

/-- Survey header states (12, Codes). -/
inductive HeaderState where
  | running | ended | endedByReset
deriving DecidableEq, Repr

def HeaderState.code : HeaderState → Nat
  | .running => 0
  | .ended => 1
  | .endedByReset => 2

/-- The bytes of a HEADER record at a survey start: RUNNING, next event number 1, resume count and last-safe seconds 0
(R177, chapter 11). -/
def headerBytes (number id startSeconds : Nat) (g : Settings) : List Byte :=
  padTo 128 (u16 number ++ u16 id ++ u32 startSeconds ++ u8 HeaderState.running.code ++ u16 1 ++ u16 0 ++ u32 0
    ++ groupBytes1 g ++ groupBytes2 g ++ groupBytes3 g ++ groupBytes4 g ++ groupBytes5 g ++ groupBytes6 g
    ++ groupBytes7 g)

/-- The settings restored from a header's bytes (R186, 12.2). -/
def settingsOf (bs : List Byte) : Settings where
  nominal := byteAt bs 18
  declared := u16At bs 19
  threshold := u16At bs 21
  hysteresis := byteAt bs 23
  interruption := u16At bs 24
  settle := byteAt bs 26
  preCycles := byteAt bs 27
  postCycles := byteAt bs 28
  endCycles := byteAt bs 29
  minutes := byteAt bs 30
  ring := byteAt bs 31 == 1
  holdUp := u16At bs 32
  offerCount := byteAt bs 34
  offers := #v[offerSettingOf bs 35, offerSettingOf bs 40, offerSettingOf bs 45, offerSettingOf bs 50,
    offerSettingOf bs 55, offerSettingOf bs 60]
  seek := byteAt bs 65 == 1
  serve := byteAt bs 66 == 1
  wants := {
    channels := byteAt bs 67
    pre := byteAt bs 68
    post := byteAt bs 69
    rate := byteAt bs 70
    decimation2 := byteAt bs 71 == 1 }
  bankA := byteAt bs 72
  bankB := byteAt bs 73
  cellWidth := byteAt bs 74
  colour := byteAt bs 75 == 1
  energy := byteAt bs 76

/-! ### Waveform descriptor -/

/-- The 36 bytes of a waveform descriptor (12.2): fields marked absent are 0, an absent origin station 0xFF (R188). -/
def Descriptor.bytes (d : Descriptor) : List Byte :=
  u16 d.survey ++ u16 (orZero (d.parent.map LatestEvent.number)) ++ u16 (orZero (d.parent.map LatestEvent.recId))
    ++ u8 ((d.origin.map fun o => o.station.val).getD 255) ++ u16 (orZero (d.origin.map Origin.surveyId))
    ++ u16 (orZero (d.origin.map Origin.event)) ++ u32 (orZero (d.origin.map Origin.arrivalMs))
    ++ u8 (orZero (d.origin.map Origin.age)) ++ u32 d.firstCycle ++ u32 d.firstMs ++ u16 d.firstPeriod ++ u8 d.wanted
    ++ u8 d.preTaken ++ u8 d.postTaken ++ u8 d.total ++ u8 d.written ++ u8 (channelByte d.channels) ++ u8 d.decimation
    ++ u8 d.invalidWritten ++ u8 d.overrangeWritten ++ u8 d.flagByte

end Sys2Proof.Machine
end

