-- ==== Sys2Proof/Machine/Store.lean ====
section
/-! DEFINITION. The Record Store's operations (chapter 5): directory, rewrites, release, shedding, allocation, holds and
pins, erase. -/

namespace Sys2Proof.Machine

/-! ### Directory and blocks -/

/-- A record's directory entry (R82). -/
def findEntry (s : State) (id : Nat) : Option Entry := s.store.dir.find? fun e => e.id == id

/-- A record's entry is changed (R82). -/
def modifyEntry (id : Nat) (f : Entry → Entry) (s : State) : State :=
  { s with store := { s.store with dir := s.store.dir.map fun e => if e.id == id then f e else e } }

/-- The record is marked CLOSED. -/
def closeEntry (id : Nat) (s : State) : State := modifyEntry id (fun e => { e with open_ := false }) s

/-- A record's bytes over its blocks (12.2). -/
def recordBytes (s : State) (e : Entry) : List Byte := Memory.readChain s.store.mem e.chain

/-- The first block of a record. -/
def Entry.firstBlock (e : Entry) : Nat := e.chain.headD 0

/-- The block that follows a block: in its record's chain, or on the free list (05, 5.1). -/
def nextIn (b : Nat) : List Nat → Option (Option Nat)
  | [] => none
  | c :: cs => if c = b then some cs.head? else nextIn b cs

/-- The link table, read from the free list and the chains that hold it (log 7): the block after `b`, or none for the
last block of a record and for the tail of the free list. -/
def linkTable (s : State) (b : Nat) : Option Nat :=
  match nextIn b s.store.free with
  | some next => next
  | none => ((s.store.dir.findSome? fun e => nextIn b e.chain).getD none)

/-- A record's blocks are written from its first byte on. -/
def writeRecord (id : Nat) (bytes : List Byte) (s : State) : State :=
  match findEntry s id with
  | none => s
  | some e => { s with store := { s.store with mem := Memory.writeChain s.store.mem e.chain bytes } }

/-- A rewrite changes the bytes of one field, from byte `i` of a record's first block on (R97, R188). -/
def rewriteField (id i : Nat) (bytes : List Byte) (s : State) : State :=
  match findEntry s id with
  | none => s
  | some e =>
    { s with store := { s.store with
        mem := Memory.write s.store.mem (blockBytes * e.firstBlock + (i - 1)) bytes } }

/-! ### The store marker (R98) -/

/-- The store marker. -/
def setMarker (writing : Bool) (s : State) : State := { s with store := { s.store with writing := writing } }

/-! ### Event records in the store -/

/-- A byte with one bit set or cleared. -/
def withBit (b n : Nat) (v : Bool) : Nat :=
  if v then (if b.testBit n then b else b + 2 ^ n) else (if b.testBit n then b - 2 ^ n else b)

/-- The capture fields of the detector's working copy, start or end. -/
def EventWork.setCapture (w : EventWork) (start : Bool) (st : CaptureStatus) (wave : Option Nat) : EventWork :=
  if start then { w with startStatus := st, startId := wave } else { w with endStatus := st, endId := wave }

/-- The working copy takes a capture change when its event is the one changed (R38, R57, R89). -/
def OpenEvent.setCapture (o : OpenEvent) (eventRec : Nat) (start : Bool) (st : CaptureStatus) (wave : Option Nat) :
    OpenEvent :=
  match o with
  | .recorded w => if w.recId = eventRec then .recorded (w.setCapture start st wave) else o
  | _ => o

/-- An event record's start or end capture status, its waveform id and its present bit are rewritten, in the working
copy too while the event is open (R38, R57, R89, R188). -/
def setCapture (eventRec : Nat) (start : Bool) (st : CaptureStatus) (wave : Option Nat) (s : State) : State :=
  let s := { s with detector := { s.detector with event := s.detector.event.setCapture eventRec start st wave } }
  match findEntry s eventRec with
  | none => s
  | some e =>
    let present := byteAt (recordBytes s e) 6
    let s := rewriteField eventRec 6 (u8 (withBit present (if start then 1 else 2) wave.isSome)) s
    let s := rewriteField eventRec (if start then 28 else 29) (u8 st.code) s
    rewriteField eventRec (if start then 30 else 32) (u16 (orZero wave)) s

/-- The pin count of an event, from its directory entry (R92). -/
def pinCount (s : State) (eventRec : Nat) : Nat := ((findEntry s eventRec).bind Entry.pins).getD 0

/-- The pin count of a waveform's parent; 0 for a record with none. -/
def parentPins (s : State) (e : Entry) : Nat := e.parent.elim 0 (pinCount s)

/-- The pin count takes a new value; a closed event's record is rewritten with it (R92). -/
def setPins (eventRec n : Nat) (s : State) : State :=
  let s := modifyEntry eventRec (fun e => { e with pins := some n }) s
  match findEntry s eventRec with
  | none => s
  | some e => if e.open_ then s else rewriteField eventRec 35 (u8 n) s

/-- The answer to a pin raise (R92): PIN_FULL, SHED_WAVEFORM, or the raise. -/
def raisePin (eventRec : Nat) (s : State) : Except Reason State :=
  let bytes := ((findEntry s eventRec).map (recordBytes s)).getD []
  if 15 ≤ pinCount s eventRec then .error .pinFull
  else if byteAt bytes 28 = CaptureStatus.shed.code ∨ byteAt bytes 29 = CaptureStatus.shed.code then
    .error .shedWaveform
  else .ok (setPins eventRec (pinCount s eventRec + 1) s)

/-- A pin lower: by 1, stopping at 0 (R92). -/
def lowerPin (eventRec : Nat) (s : State) : State :=
  match findEntry s eventRec with
  | none => s
  | some _ => setPins eventRec (pinCount s eventRec - 1) s

/-! ### Release (R81, R90) -/

/-- Blocks join the free list at its tail, in order, and the new free count is handed to the Agreement Unit (R81). -/
def freeBlocks (blocks : List Nat) (s : State) : State :=
  formOffers { s with store := { s.store with
    free := s.store.free ++ blocks, freeCount := s.store.freeCount + blocks.length } }

/-- A whole record is released: its entry is removed and its blocks join the free list (R90). -/
def releaseRecord (id : Nat) (s : State) : State :=
  match findEntry s id with
  | none => s
  | some e =>
    freeBlocks e.chain { s with store := { s.store with dir := s.store.dir.filter fun x => x.id != id } }

/-- A record keeps the blocks of `keep`, in order, and releases its other blocks (R90). -/
def shrinkRecord (id : Nat) (keep release : List Nat) (s : State) : State :=
  freeBlocks release (modifyEntry id (fun e => { e with chain := keep }) s)

/-! ### Shedding (R86, R87, R89) -/

/-- Who asks for an allocation (R87). -/
inductive Asker where
  | companion
  | own (parent : Nat)
  | interval
  | oneBlock
deriving DecidableEq, Repr

/-- The reserve that binds a requester (R85). -/
def Asker.reserve : Asker → Nat
  | .oneBlock => 0
  | _ => 8

/-- The HEADER record with the highest record id (R131, R179). -/
def lastHeader (s : State) : Option Entry := (s.store.dir.filter fun e => e.kind == .header).getLast?

/-- The survey whose earlier surveys' waveforms form group 2: the running survey, or the last survey started
(R86, log 29). -/
def groupSurvey (s : State) : Nat :=
  if s.survey.running then s.survey.number else ((lastHeader s).map Entry.survey).getD 0

/-- CLOSED with the hold clear (R86). -/
def Entry.isLoose (e : Entry) : Bool := !e.open_ && !e.hold

/-- A waveform kind of the station's own. -/
def RecordKind.isOwnWave (k : RecordKind) : Bool := k == .waveformStart || k == .waveformEnd

/-- A waveform or companion record. -/
def RecordKind.isWave (k : RecordKind) : Bool := k.isOwnWave || k == .companion

/-- A record belongs to a shed group (R86). -/
def inGroup (s : State) (g : Nat) (e : Entry) : Bool :=
  match g with
  | 1 => e.isLoose && e.kind == .companion
  | 2 => e.isLoose && e.kind.isOwnWave && decide (e.survey < groupSurvey s) && parentPins s e == 0
  | 3 => e.isLoose && e.kind == .waveformEnd && parentPins s e == 0
  | 4 => e.isLoose && e.kind == .waveformStart && parentPins s e == 0
  | 5 => e.isLoose && e.kind == .interval && s.survey.settings.ring
  | _ => false

/-- The groups a requester may shed (R87); group 5 has members in RING mode only. -/
def Asker.groups : Asker → List Nat
  | .companion => [1]
  | .own _ => [1, 2, 3, 4]
  | .interval => [1, 2, 3, 5]
  | .oneBlock => [1, 2, 3, 4, 5]

/-- An own capture passes over the waveforms of its own parent event (R87). -/
def Asker.spares (a : Asker) (e : Entry) : Bool :=
  match a with
  | .own p => e.parent == some p
  | _ => false

/-- The records a requester may shed, in the order it sheds them: group by group, lowest record id first, each record
in the first group it belongs to (R86, R87). -/
def shedOrder (s : State) (a : Asker) : List Entry :=
  a.groups.flatMap fun g => s.store.dir.filter fun e =>
    inGroup s g e && !(decide (2 < g) && inGroup s 2 e) && !a.spares e

/-- A waveform that is shed or discarded brings its parent event into line: status SHED, no waveform id (R89, R96). -/
def parentShed (e : Entry) (s : State) : State :=
  match e.parent with
  | none => s
  | some p =>
    if e.kind == .waveformStart then setCapture p true .shed none s
    else if e.kind == .waveformEnd then setCapture p false .shed none s
    else s

/-- A record is shed (R89). -/
def shedRecord (e : Entry) (s : State) : State :=
  let s := releaseRecord e.id s
  parentShed e { s with store := { s.store with shed := raise16 s.store.shed 1 } }

/-- The free count less `n` keeps the reserve (R85). -/
def fits (a : Asker) (n : Nat) (s : State) : Bool := n + a.reserve ≤ s.store.freeCount

/-- Records are shed one at a time until the test holds (R87). -/
def shedUntil (a : Asker) (n : Nat) : List Entry → State → State
  | [], s => s
  | e :: es, s => if fits a n s then s else shedUntil a n es (shedRecord e s)

/-! ### Allocation (R84, R85, R87, R88) -/

/-- The store's answer to an allocation. -/
inductive Grant where
  /-- a record of so many blocks was made -/
  | made (recId blocks : Nat)
  /-- a grant of 0 blocks to an own capture (R88) -/
  | nothing
  | storeFull
  | safe
deriving DecidableEq, Repr

/-- `n` blocks from the head of the free list become a record with the next id (R81, R84); the new free count is handed
over (R81). -/
def makeRecord (n : Nat) (e : Entry) (s : State) : State × Grant :=
  let id := s.store.idCounter
  (formOffers { s with store := { s.store with
      free := s.store.free.drop n
      freeCount := s.store.freeCount - n
      dir := s.store.dir ++ [{ e with id := id, chain := s.store.free.take n }]
      idCounter := id + 1 } },
    .made id n)

/-- An allocation answered STORE_FULL (R85). -/
def refuseFull (s : State) : State × Grant :=
  ({ s with store := { s.store with refused := raise16 s.store.refused 1 } }, .storeFull)

/-- The partial grant of an own capture (R88). -/
def partialBlocks (free : Nat) : Nat := if 8 < free then 3 * ((free - 8) / 3) else 0

/-- The blocks of the records a requester may shed (R87). -/
def sheddable (s : State) (a : Asker) : Nat := total ((shedOrder s a).map fun e => e.chain.length)

/-- An allocation of `n` blocks for the record `e` (R84, R85, R87, R88, R97). -/
def allocate (a : Asker) (n : Nat) (e : Entry) (s : State) : State × Grant :=
  if s.supply.state = .safe then (s, .safe)
  else if 65536 ≤ s.store.idCounter then refuseFull s
  else if fits a n s then makeRecord n e s
  else
    match a with
    | .own _ =>
      let s := shedUntil a n (shedOrder s a) s
      if fits a n s then makeRecord n e s
      else if partialBlocks s.store.freeCount = 0 then (s, .nothing)
      else makeRecord (partialBlocks s.store.freeCount) e s
    | _ =>
      if s.store.freeCount + sheddable s a < n + a.reserve then refuseFull s
      else
        let s := shedUntil a n (shedOrder s a) s
        if fits a n s then makeRecord n e s else refuseFull s

/-- An entry of a kind, before the store gives it its id and blocks. -/
def newEntry (kind : RecordKind) (survey : Nat) (open_ : Bool) (time : Nat) : Entry where
  id := 0
  kind := kind
  survey := survey
  open_ := open_
  parent := none
  chain := []
  hold := false
  pins := none
  time := time
  desc := none

/-! ### Holds (R91) -/

/-- The hold flag of a record is set or cleared (R91). -/
def setHold (id : Nat) (v : Bool) (s : State) : State := modifyEntry id (fun e => { e with hold := v }) s

/-! ### Erase (R81, R101) -/

/-- Every record is released: all blocks free in ascending order, the directory empty, the id counter 1, every cursor
marked GONE (R101). -/
def eraseStore (s : State) : State :=
  formOffers { s with store := { s.store with
    free := List.range' 0 4096
    freeCount := 4096
    dir := []
    idCounter := 1
    cursors := s.store.cursors.map fun c => { c with gone := true } } }

/-- The records of a kind that belong to a survey, in record id order. -/
def recordsOf (s : State) (kind : RecordKind) (survey : Nat) : List Entry :=
  s.store.dir.filter fun e => e.kind == kind && e.survey == survey

/-- The EVENT record of a survey that carries an event number (R108). -/
def findEvent (s : State) (survey number : Nat) : Option Entry :=
  (recordsOf s .event survey).find? fun e => u16At (recordBytes s e) 1 == number

end Sys2Proof.Machine
end

