-- ==== Sys2Proof/Machine/Capture.lean ====
section
/-! DEFINITION. The Capture Engine (chapter 3): ring, slots, own and companion captures, writing, completion, closing
short. -/

namespace Sys2Proof.Machine

/-! ### Cycle timing read by the engine -/

/-- The nominal period of the configured frequency (R5). -/
def nominalPeriod (g : Settings) : Nat := if g.nominal = 60 then 16667 else 20000

/-- The free-run count the next cycle start will find (R11). -/
def nextFreeRunCount (s : State) : Nat :=
  if s.sampling.accepted then s.sampling.freeRunCount else min 4 (s.sampling.freeRunCount + 1)

/-- The period the next cycle start will fix (R5, R11). -/
def nextPeriod (s : State) : Nat :=
  if nextFreeRunCount s = 4 then nominalPeriod s.survey.settings else s.sampling.period

/-- The cycle in progress (R42): one above the newest cycle of the ring; with an empty ring, the running cycle. -/
def cycleInProgress (s : State) : Nat :=
  match s.capture.ring.getLast? with
  | some c => c.number + 1
  | none => s.sampling.cycle

/-- Start tick and period of a cycle: as the ring holds it, the running cycle's, or those the next cycle will have
(R46, log 35). -/
def cycleTiming (s : State) (k : Nat) : Nat × Nat :=
  match s.capture.ring.find? fun c => c.number == k with
  | some c => (c.startTick, c.period)
  | none =>
    if k = s.sampling.cycle then (s.sampling.cycleStart, s.sampling.cyclePeriod)
    else (s.sampling.cycleStart + s.sampling.cyclePeriod, nextPeriod s)

/-! ### Slots (R44) -/

/-- The four slots, slot 1 first. -/
def allSlots : List (Fin 4) := [0, 1, 2, 3]

/-- A slot's content. -/
def slot (s : State) (i : Fin 4) : Option Slot := s.capture.slots[i]

/-- A slot is filled or freed. -/
def setSlot (i : Fin 4) (v : Option Slot) (s : State) : State :=
  { s with capture := { s.capture with slots := s.capture.slots.set i v } }

/-- The lowest-numbered free slot (R44). -/
def freeSlot (s : State) : Option (Fin 4) := allSlots.find? fun i => (slot s i).isNone

/-- The slot of the COMPANION with the highest open order (R50). -/
def newestCompanion (s : State) : Option (Fin 4) :=
  allSlots.foldl (init := none) fun best i =>
    match slot s i with
    | some x =>
      if x.kind = .companion then
        match best.bind (slot s) with
        | some y => if y.order < x.order then some i else best
        | none => some i
      else best
    | none => best

/-! ### Layout of waveform records (R45) -/

/-- Blocks of one channel's region for `c` cycles (R45). -/
def regionBlocks (decimation c : Nat) : Nat := if decimation = 1 then c else ceilDiv c 2

/-- The codes of a channel over a cycle, in strobe order. -/
def channelCodes (ch : Channel) (c : CompletedCycle) : List Int := c.sets.map fun x => x.codes.get ch

/-- The codes at positions 0, 2, 4 … 62 (R45). -/
def evenCodes : List Int → List Int
  | a :: _ :: rest => a :: evenCodes rest
  | l => l

/-- The bytes a cycle of one channel takes in its region: a block at decimation 1; at decimation 2 its half-block, the
first cycle of a pair with a blank second half (R45, R52). -/
def cycleBytes (decimation written : Nat) (codes : List Int) : List Byte :=
  if decimation = 1 then padTo 128 (codes.flatMap code16)
  else if written % 2 = 0 then padTo 128 ((evenCodes codes).flatMap code16)
  else padTo 64 ((evenCodes codes).flatMap code16)

/-- Where those bytes go: the index of the block in the record's chain and the offset in the block (R45, R52). -/
def cyclePlace (decimation total written region : Nat) : Nat × Nat :=
  if decimation = 1 then (region * regionBlocks decimation total + written, 0)
  else (region * regionBlocks decimation total + written / 2, if written % 2 = 0 then 0 else 64)

/-- One channel of a cycle written into its region (R45, R52). -/
def writeRegion (x : Slot) (chain : List Nat) (c : CompletedCycle) (m : Memory) (ch : Channel × Nat) : Memory :=
  let place := cyclePlace x.decimation x.total x.written ch.2
  match chain[place.1]? with
  | some b => Memory.write m (blockBytes * b + place.2) (cycleBytes x.decimation x.written (channelCodes ch.1 c))
  | none => m

/-- Blocks that leave the reserve when a cycle is written (R52). -/
def blocksFilled (x : Slot) : Nat :=
  if x.decimation = 1 ∨ x.written % 2 = 0 then channelCount x.channels else 0

/-- The descriptor after a cycle is written (R46, R52). -/
def Descriptor.wrote (d : Descriptor) (c : CompletedCycle) : Descriptor :=
  { d with
    written := d.written + 1
    invalidWritten := d.invalidWritten + (if c.valid then 0 else 1)
    overrangeWritten := d.overrangeWritten + (if 0 < c.overrange then 1 else 0) }

/-- The slot is free and its record CLOSED: the capture is complete (R53). -/
def completeSlot (i : Fin 4) (x : Slot) (s : State) : State := setSlot i none (closeEntry x.recId s)

/-- A cycle that is a slot's next to write is written to it; the last one completes the capture (R52, R53). -/
def writeCycle (c : CompletedCycle) (i : Fin 4) (s : State) : State :=
  match slot s i with
  | none => s
  | some x =>
    if x.first + x.written = c.number then
      let chain := ((findEntry s x.recId).map Entry.chain).getD []
      let m := (channelList x.channels).zipIdx.foldl (writeRegion x chain c) s.store.mem
      let s := { s with store := { s.store with mem := m } }
      let s := modifyEntry x.recId (fun e => { e with desc := e.desc.map fun d => d.wrote c }) s
      let x' := { x with written := x.written + 1, reserved := x.reserved - blocksFilled x }
      if x'.written = x'.total then completeSlot i x' s else setSlot i (some x') s
    else s

/-! ### Closing short (R57) -/

/-- What closes a capture before its last cycle. -/
inductive ShortCause where
  | truncated | cutShort
deriving DecidableEq, Repr

/-- The blocks of each of `k` regions that hold its first cycles, and the others, both in chain order (R57, R90). -/
def splitChain (chain : List Nat) (k region filled : Nat) : List Nat × List Nat :=
  let regions := (List.range k).map fun i => (chain.drop (i * region)).take region
  (regions.flatMap fun r => r.take filled, regions.flatMap (fun r => r.drop filled) ++ chain.drop (k * region))

/-- A descriptor cut to its written cycles, with the flag of the cause (R57, R99). -/
def Descriptor.cut (d : Descriptor) (cause : ShortCause) : Descriptor :=
  match cause with
  | .truncated => { d with total := d.written, truncated := true }
  | .cutShort => { d with total := d.written, cutShort := true }

/-- A capture record cut to `w` written cycles of its `t`, or released when none was written, with the parent event
brought into line (R57, R99 step 1). -/
def cutRecord (recId : Nat) (d : Descriptor) (parent : Option Nat) (start : Bool) (cause : ShortCause) (s : State) :
    State :=
  if d.written = 0 then
    let s := releaseRecord recId s
    match parent with
    | some p => setCapture p start .none none s
    | none => s
  else
    let chain := ((findEntry s recId).map Entry.chain).getD []
    let parts := splitChain chain (channelCount d.channels) (regionBlocks d.decimation d.total)
      (regionBlocks d.decimation d.written)
    let s := shrinkRecord recId parts.1 parts.2 s
    let s := modifyEntry recId (fun e => { e with desc := some (d.cut cause), open_ := false }) s
    match parent with
    | some p => setCapture p start .partial_ (some recId) s
    | none => s

/-- The capture of a slot is closed with the cycles already written, and the slot is free (R57). -/
def closeShort (cause : ShortCause) (s : State) (i : Fin 4) : State :=
  match slot s i with
  | none => s
  | some x =>
    let s := setSlot i none s
    match (findEntry s x.recId).bind Entry.desc with
    | none => s
    | some d => cutRecord x.recId d (x.parent.map LatestEvent.recId) (x.kind == .ownStart) cause s

/-- Every open slot is closed short, slot 1 first: R58 and R59 give no order among them (log 46). -/
def closeAllShort (cause : ShortCause) (s : State) : State := allSlots.foldl (closeShort cause) s

/-! ### Opening (R51) -/

/-- What a capture takes, after clipping and grant. -/
structure CapturePlan where
  kind : SlotKind
  recordKind : RecordKind
  parent : Option LatestEvent
  origin : Option Origin
  first : Nat
  pre : Nat
  post : Nat
  wanted : Nat
  clipped : Bool
  channels : ChannelSet
  decimation : Nat
deriving DecidableEq, Repr

/-- Blocks a plan asks for (R45). -/
def CapturePlan.blocks (p : CapturePlan) : Nat := channelCount p.channels * regionBlocks p.decimation (p.pre + p.post)

/-- The descriptor written at the opening (R46). -/
def CapturePlan.descriptor (p : CapturePlan) (s : State) : Descriptor where
  survey := s.survey.number
  parent := p.parent
  origin := p.origin
  firstCycle := p.first
  firstMs := s.clock.msOf (cycleTiming s p.first).1
  firstPeriod := (cycleTiming s p.first).2
  wanted := p.wanted
  preTaken := p.pre
  postTaken := p.post
  total := p.pre + p.post
  written := 0
  channels := p.channels
  decimation := p.decimation
  invalidWritten := 0
  overrangeWritten := 0
  clipped := p.clipped
  truncated := false
  cutShort := false

/-- The directory entry a capture asks the store to make (R46). -/
def CapturePlan.entry (p : CapturePlan) (s : State) : Entry :=
  { newEntry p.recordKind s.survey.number true ((p.origin.map Origin.arrivalMs).getD (surveyMs s)) with
    parent := p.parent.map LatestEvent.recId }

/-- A granted capture takes its slot, its descriptor is written, and its cycles already in the ring are copied, oldest
first (R51). -/
def openSlot (i : Fin 4) (p : CapturePlan) (recId blocks : Nat) (s : State) : State :=
  let order := s.capture.openOrder + 1
  let x : Slot := {
    kind := p.kind
    recId := recId
    parent := p.parent
    first := p.first
    total := p.pre + p.post
    written := 0
    channels := p.channels
    decimation := p.decimation
    reserved := blocks
    order := order }
  let s := setSlot i (some x) { s with capture := { s.capture with openOrder := order } }
  let s := modifyEntry recId (fun e => { e with desc := some (p.descriptor s) }) s
  s.capture.ring.foldl (fun s c => writeCycle c i s) s

/-! ### Own captures (R47 to R51) -/

/-- Wanted pre-cycles that the ring still holds, of `want` before cycle `c0` (R47). -/
def preInRing (s : State) (c0 want : Nat) : Nat :=
  (s.capture.ring.filter fun c => decide (c0 ≤ c.number + want) && decide (c.number < c0)).length

/-- A plan cut to a grant of whole cycles: post-cycles first, from the latest back, then pre-cycles from the oldest
forward (R48). -/
def CapturePlan.fit (p : CapturePlan) (cycles : Nat) : CapturePlan :=
  let pre := min p.pre cycles
  { p with first := p.first + (p.pre - pre), pre := pre, post := cycles - pre }

/-- A slot for an own capture: a free one, or the one of the displaced companion (R50). -/
def ownSlot (s : State) : Option (Fin 4 × State) :=
  match freeSlot s with
  | some i => some (i, s)
  | none =>
    match newestCompanion s with
    | none => none
    | some i =>
      let s := closeShort .truncated s i
      some (i, { s with capture := { s.capture with displaced := raise16 s.capture.displaced 1 } })

/-- An own capture of an event: the answer is its status and, when a record was made, its id (R47 to R51). `pre` and
`post` cycles are wanted around cycle `c0`. -/
def ownCapture (kind : SlotKind) (c0 pre post : Nat) (event : LatestEvent) (s : State) :
    State × CaptureStatus × Option Nat :=
  match ownSlot s with
  | none =>
    ({ s with capture := { s.capture with ownRefused := raise16 s.capture.ownRefused 1 } }, .none, none)
  | some (i, s) =>
    let taken := preInRing s c0 pre
    let plan : CapturePlan := {
      kind := kind
      recordKind := if kind = .ownStart then .waveformStart else .waveformEnd
      parent := some event
      origin := none
      first := c0 - taken
      pre := taken
      post := post
      wanted := pre + post
      clipped := decide (taken < pre)
      channels := everyChannel
      decimation := 1 }
    if plan.blocks = 0 then (s, .none, none)
    else
      match allocate (.own event.recId) plan.blocks (plan.entry s) s with
      | (s, .made recId g) =>
        (openSlot i (plan.fit (g / 3)) recId g s, if g = plan.blocks then .full else .partial_, some recId)
      | (s, _) => (s, .none, none)

/-- The start capture of a recorded event (R47). -/
def startCapture (c0 : Nat) (event : LatestEvent) (s : State) : State × CaptureStatus × Option Nat :=
  ownCapture .ownStart c0 s.survey.settings.preCycles s.survey.settings.postCycles event s

/-- The end capture at a recovery (R49); its grant is written into the parent event's record (R89, R188, log 13). -/
def endCapture (recovery : Nat) (event : LatestEvent) (s : State) : State × CaptureStatus × Option Nat :=
  let r := ownCapture .ownEnd recovery 2 s.survey.settings.endCycles event s
  (setCapture event.recId false r.2.1 r.2.2 r.1, r.2)

/-- The start slot of an event is open (R31). -/
def startSlotOpen (eventRec : Nat) (s : State) : Bool :=
  allSlots.any fun i => (slot s i).any fun x =>
    x.kind == .ownStart && (x.parent.map LatestEvent.recId) == some eventRec

/-! ### Companion captures (R54 to R56) -/

/-- Why a companion was not served (R54). -/
inductive NotServed where
  | notRunning | noSlot | noCycles | noBlocks
deriving DecidableEq, Repr

/-- The span of a companion, placed from the age and clipped to the ring: first cycle, pre and post taken, clipped
(R55). None when no cycle is left. -/
def placeCompanion (s : State) (age pre post : Nat) : Option (Nat × Nat × Nat × Bool) :=
  let ca := cycleInProgress s
  let estimate : Int := (ca : Int) - (ceilDiv age 2 : Nat)
  let oldest : Int := ((s.capture.ring.head?.map CompletedCycle.number).getD ca : Nat)
  let first : Int := max (estimate - pre) oldest
  let after : Int := estimate + post
  if after ≤ first then none
  else
    let preTaken := (estimate - first).toNat
    some (first.toNat, preTaken, (after - first).toNat - preTaken, decide (estimate - pre < first))

/-- A companion capture asked for by the Agreement Unit (R54): SERVED with the record id, or the reason it was not. -/
def companionCapture (origin : Origin) (o : Offer) (s : State) : State × Except NotServed Nat :=
  if !s.survey.running || s.supply.state == .safe then (s, .error .notRunning)
  else
    match freeSlot s with
    | none => (s, .error .noSlot)
    | some i =>
      match placeCompanion s origin.age o.pre o.post with
      | none => (s, .error .noCycles)
      | some (first, pre, post, clipped) =>
        let plan : CapturePlan := {
          kind := .companion
          recordKind := .companion
          parent := none
          origin := some origin
          first := first
          pre := pre
          post := post
          wanted := o.pre + o.post
          clipped := clipped
          channels := o.channels
          decimation := o.decimation }
        match allocate .companion plan.blocks (plan.entry s) s with
        | (s, .made recId g) => (openSlot i plan recId g s, .ok recId)
        | (s, _) => (s, .error .noBlocks)

/-! ### Hand-over of a completed cycle (R42, R52) -/

/-- The ring takes a completed cycle as its newest, dropping its oldest when full (R42). -/
def ringTake (c : CompletedCycle) (s : State) : State :=
  let ring := if s.capture.ring.length < 16 then s.capture.ring else s.capture.ring.drop 1
  { s with capture := { s.capture with ring := ring ++ [c] } }

/-- The engine writes a handed-over cycle to every open slot whose next cycle it is, and the ring takes it (R42, R52). -/
def captureCycle (c : CompletedCycle) (s : State) : State :=
  ringTake c (allSlots.foldl (fun s i => writeCycle c i s) s)

/-- The ring is emptied (R43). -/
def emptyRing (s : State) : State := { s with capture := { s.capture with ring := [] } }

end Sys2Proof.Machine
end

