-- ==== Sys2Proof/Machine/Harmonic.lean ====
section
/-! DEFINITION. The Harmonic Unit (chapter 4): tables, per-cycle analysis, intervals on the calendar, accumulation and
the interval record. -/

namespace Sys2Proof.Machine

/-! ### Per-cycle analysis (4.1) -/

/-- C[k] = 32767 cos(2 pi k / 64), rounded to the nearest whole number, k = 0..63 (R61). -/
def cosTable : List Int :=
  [32767, 32609, 32137, 31356, 30273, 28898, 27245, 25329, 23170, 20787, 18204, 15446, 12539, 9512, 6393, 3212]
  ++ [0, -3212, -6393, -9512, -12539, -15446, -18204, -20787, -23170, -25329, -27245, -28898, -30273, -31356, -32137,
    -32609]
  ++ [-32767, -32609, -32137, -31356, -30273, -28898, -27245, -25329, -23170, -20787, -18204, -15446, -12539, -9512,
    -6393, -3212]
  ++ [0, 3212, 6393, 9512, 12539, 15446, 18204, 20787, 23170, 25329, 27245, 28898, 30273, 31356, 32137, 32609]

/-- C[k] (R61). -/
def cosEntry (k : Nat) : Int := cosTable.getD (k % 64) 0

/-- S[k] = C[k - 16], the sine table (R61). -/
def sinEntry (k : Nat) : Int := cosEntry (k + 48)

/-- The sum over n of x[n] times an entry of a table at h n mod 64 (R62). -/
def transform (entry : Nat → Int) (h : Nat) (x : List Int) : Int :=
  x.zipIdx.foldl (fun acc y => acc + y.1 * entry (h * y.2)) 0

/-- V_h of a channel's 64 codes (R62). -/
def harmonicOf (x : List Int) (h : Nat) : Nat :=
  let a := transform cosEntry h x / 32768
  let b := transform sinEntry h x / 32768
  min 32767 (isqrt (a * a + b * b).toNat * 46341 / 2097152)

/-- Orders 1 to 25. -/
def orders : List Nat := List.range' 1 25

/-- V_1 to V_25 of a channel's codes (R62). -/
def harmonicsOf (x : List Int) : List Nat := orders.map (harmonicOf x)

/-- The THD of V_1 to V_25, not formed when V_1 is 0 (R63). -/
def thdOf (v : List Nat) : Option Nat :=
  let v1 := v.headD 0
  if v1 = 0 then none else some (min 9999 (10000 * isqrt (total (v.tail.map fun x => x * x)) / v1))

/-! ### Intervals on the calendar (4.2) -/

/-- Seconds of a slot of L minutes. -/
def slotSeconds (g : Settings) : Nat := 60 * g.minutes

/-- The interval index of a start ms (R65). -/
def intervalIndex (g : Settings) (startSeconds t0 : Nat) : Nat :=
  (startSeconds + t0 / 1000) / slotSeconds g - startSeconds / slotSeconds g

/-- The end boundary of an interval that opens at survey ms t0: the least boundary ms greater than t0 (R64). R65 gives
the field 32 bits and does not say what a boundary above them reads; the model keeps the boundary itself (log 47). -/
def boundaryAfter (g : Settings) (startSeconds t0 : Nat) : Nat :=
  let b := slotSeconds g * ((1000 * startSeconds + t0) / (1000 * slotSeconds g) + 1)
  (b - startSeconds) * 1000

/-- A channel's accumulators at an opening (R65). -/
def ChannelSums.opening : ChannelSums where
  harmonicSq := List.replicate 25 0
  harmonicMax := List.replicate 25 0
  thdSum := 0
  thdCount := 0
  thdMax := 0
  rmsMin := 32767
  rmsMax := 0
  rmsSq := 0

/-- An interval as it opens at survey ms t0 (R64, R65, R66). -/
def newInterval (g : Settings) (startSeconds t0 : Nat) (partialFlag : Bool) : Interval where
  index := intervalIndex g startSeconds t0
  startMs := t0
  endBoundary := boundaryAfter g startSeconds t0
  partial_ := partialFlag
  valid := 0
  invalid := 0
  event := 0
  sums := ⟨.opening, .opening, .opening⟩
  periodSum := 0
  rmsWindows := 0
  windows := 0
  firstEvent := none
  events := 0
  lastEvent := none
  notices := 0
  overrangeSets := 0

/-- The open interval is replaced. -/
def setInterval (i : Option Interval) (s : State) : State := { s with harmonic := { s.harmonic with interval := i } }

/-- An interval opens, PARTIAL, when none is open (R66, log 16). -/
def openPartial (t0 : Nat) (s : State) : State :=
  match s.harmonic.interval with
  | some _ => s
  | none => setInterval (some (newInterval s.survey.settings s.survey.startSeconds t0 true)) s

/-! ### The interval record (4.4) -/

/-- A harmonic or RMS average: isqrt of the floored mean of squares; 0 when n is 0 (R73). -/
def rootMean (sumSq n : Nat) : Nat := if n = 0 then 0 else isqrt (sumSq / n)

/-- The frequency in mHz; 0 when n is 0 (R73). -/
def frequencyOf (periodSum n : Nat) : Nat := if n = 0 then 0 else 1000000000 / (periodSum / n)

/-- The flags PARTIAL, FLAGGED and NO_DATA as a byte; `short` for a close at survey end or at SAFE (R74). -/
def Interval.flagByte (i : Interval) (short : Bool) : Nat :=
  intervalFlagByte (i.partial_ || short) (decide (0 < i.event)) (i.valid == 0)

/-- The 42 header bytes of an interval record (R74, 12.2). -/
def Interval.headerBytes (i : Interval) (survey endMs : Nat) (short : Bool) : List Byte :=
  u16 survey ++ u32 i.index ++ u32 i.startMs ++ u32 endMs ++ u8 (i.flagByte short) ++ u32 i.valid ++ u32 i.invalid
    ++ u32 i.event ++ u16 (orZero i.firstEvent) ++ u16 i.events ++ u16 i.notices ++ u32 i.overrangeSets
    ++ u32 (frequencyOf i.periodSum i.valid) ++ u8 0

/-- The THD average; 0 when no THD was formed or n is 0 (R73). -/
def ChannelSums.thdAverage (c : ChannelSums) : Nat := if c.thdCount = 0 then 0 else c.thdSum / c.thdCount

/-- The 110 bytes of a channel's region (R73, R74, 12.2). -/
def ChannelSums.bytes (c : ChannelSums) (valid rmsWindows windows : Nat) : List Byte :=
  u16 (if windows = 0 then 0 else c.rmsMin) ++ u16 (if windows = 0 then 0 else c.rmsMax)
    ++ u16 (if valid = 0 then 0 else rootMean c.rmsSq rmsWindows)
    ++ u16 (if valid = 0 then 0 else c.thdAverage) ++ u16 c.thdMax
    ++ (c.harmonicSq.zip c.harmonicMax).flatMap fun x => u16 (rootMean x.1 valid) ++ u16 x.2

/-- The 384 bytes of an interval record (12.2). -/
def Interval.bytes (i : Interval) (survey endMs : Nat) (short : Bool) : List Byte :=
  padTo 384 (i.headerBytes survey endMs short ++ i.sums.toList.flatMap fun c => c.bytes i.valid i.rmsWindows i.windows)

/-- The open interval closes: its record is allocated and written, or the interval is lost (R73 to R75). -/
def closeInterval (endMs : Nat) (short : Bool) (s : State) : State :=
  match s.harmonic.interval with
  | none => s
  | some i =>
    let s := setInterval none s
    match allocate .interval 3 (newEntry .interval s.survey.number false i.startMs) s with
    | (s, .made recId _) =>
      let s := writeRecord recId (i.bytes s.survey.number endMs short) s
      { s with harmonic := { s.harmonic with lastInterval := some recId } }
    | (s, _) => { s with harmonic := { s.harmonic with dropped := raise16 s.harmonic.dropped 1 } }

/-! ### Accumulation (4.3) -/

/-- A window's part in a channel's accumulators (R70). -/
def ChannelSums.takeWindow (counted : Bool) (c : ChannelSums) (rms : Nat) : ChannelSums :=
  { c with
    rmsMin := min c.rmsMin rms
    rmsMax := max c.rmsMax rms
    rmsSq := if counted then c.rmsSq + rms * rms else c.rmsSq }

/-- A window taken by the interval (R70). -/
def Interval.takeWindow (w : WindowResult) (m : EventMark) (i : Interval) : Interval :=
  let counted := w.valid && !m.eventWindow
  { i with
    windows := i.windows + 1
    rmsWindows := if counted then i.rmsWindows + 1 else i.rmsWindows
    sums := Tri.zip (ChannelSums.takeWindow counted) i.sums w.rms }

/-- The mark of a window is kept for its cycle (R68). -/
def keepMark (kind : WindowKind) (m : EventMark) (s : State) : State :=
  match kind with
  | .mid => { s with harmonic := { s.harmonic with midMark := some m } }
  | .end_ => { s with harmonic := { s.harmonic with endMark := some m } }

/-- A window at or after the end boundary closes the interval at the boundary and opens the next one (R67). -/
def crossBoundary (endMs : Nat) (s : State) : State :=
  match s.harmonic.interval with
  | none => s
  | some i =>
    if i.endBoundary ≤ endMs then
      let s := closeInterval i.endBoundary false s
      setInterval (some (newInterval s.survey.settings s.survey.startSeconds i.endBoundary false)) s
    else s

/-- The unit takes a window and its event mark (R67, R70). Before the survey's cycle 0 it takes none, and an interval
that a return from SAFE opened meanwhile waits (R66, log 16). -/
def harmonicWindow (w : WindowResult) (m : EventMark) (s : State) : State :=
  let s := keepMark w.kind m s
  if s.sampling.firstCyclePending then s
  else
    let s := crossBoundary w.endMs s
    match s.harmonic.interval with
    | none => s
    | some i => setInterval (some (i.takeWindow w m)) s

/-- A valid cycle's part in a channel's accumulators (R69). -/
def ChannelSums.takeCycle (c : ChannelSums) (v : List Nat) : ChannelSums :=
  let c := { c with
    harmonicSq := List.zipWith (fun a x => a + x * x) c.harmonicSq v
    harmonicMax := List.zipWith max c.harmonicMax v }
  match thdOf v with
  | none => c
  | some t => { c with thdSum := c.thdSum + t, thdCount := c.thdCount + 1, thdMax := max c.thdMax t }

/-- The codes of a cycle, channel by channel. -/
def cycleCodes (c : CompletedCycle) : Tri (List Int) := Tri.of fun ch => c.sets.map fun x => x.codes.get ch

/-- An event number carried by a mark of an event cycle is counted (R71). -/
def Interval.countEvent (i : Interval) (n : Nat) : Interval :=
  if i.lastEvent = some n then i
  else { i with events := raise16 i.events 1, lastEvent := some n, firstEvent := some (i.firstEvent.getD n) }

/-- The event numbers carried by the marks of a cycle's windows, in window order (R71). -/
def markNumbers (mid end_ : Option EventMark) : List Nat :=
  (mid.bind EventMark.number).toList ++ (end_.bind EventMark.number).toList

/-- A cycle taken by the interval is classed and accumulated (R68, R69, R71). DESIGN CHOICE: the counts and sums are kept
exact beyond the widths that follow R65, which an interval held open by the stopped survey clock may pass (log 66,
unsafe). -/
def Interval.takeCycle (c : CompletedCycle) (mid end_ : Option EventMark) (i : Interval) : Interval :=
  let i := { i with overrangeSets := min 4294967295 (i.overrangeSets + c.overrange) }
  if mid.any EventMark.eventWindow || end_.any EventMark.eventWindow then
    (markNumbers mid end_).foldl Interval.countEvent { i with event := i.event + 1 }
  else if !c.valid then { i with invalid := i.invalid + 1 }
  else { i with
    valid := i.valid + 1
    sums := Tri.zip ChannelSums.takeCycle i.sums ((cycleCodes c).map harmonicsOf)
    periodSum := i.periodSum + c.period }

/-- The unit takes a completed cycle; the marks kept for it are used and dropped (R68). Before the survey's cycle 0 it
takes none (R66, log 16). -/
def harmonicCycle (c : CompletedCycle) (s : State) : State :=
  let mid := s.harmonic.midMark
  let end_ := s.harmonic.endMark
  let s := { s with harmonic := { s.harmonic with midMark := none, endMark := none } }
  if s.sampling.firstCyclePending then s
  else
    match s.harmonic.interval with
    | none => s
    | some i => setInterval (some (i.takeCycle c mid end_)) s

/-- A peer's notice heard while an interval is open (R72). -/
def noticeHeard (s : State) : State :=
  match s.harmonic.interval with
  | none => s
  | some i => setInterval (some { i with notices := raise16 i.notices 1 }) s

end Sys2Proof.Machine
end

