-- ==== Sys2Proof/Machine/Receiver.lean ====
section
/-! DEFINITION. The receiver's side of the line (10, R165, R166, R168, R169): the wait for a free line, the start bit, the
removal of inserted bits, and the first of the steps 1 to 3 at which a frame fails. -/

namespace Sys2Proof.Machine

/-! ### The free line (R165) -/

/-- Recessive bits in a row after which the line is free (R165). -/
def freeRun : Nat := 10

/-- The recessive bits in a row at the end of some bits, of which `n` came before them; the bits are read up to a free
line, and those after it are left (R165). -/
def awaitFree (n : Nat) : List Bool → Nat × List Bool
  | [] => (n, [])
  | b :: bs => if freeRun ≤ n then (n, b :: bs) else awaitFree (if b then n + 1 else 0) bs

/-! ### Inserted bits (R165) -/

/-- What the receiver has read of the stuffed part: the bits that are no inserted ones, the run of equal bits it stands
in, and the bits still on the line. -/
structure StuffedRead where
  data : List Bool
  level : Bool
  run : Nat
  rest : List Bool
deriving DecidableEq, Repr

/-- The next `need` bits of the stuffed part, the inserted ones removed; reading ends early at six equal bits, or where
the bits end (R165). `run` equal bits of level `level` came before. -/
def unstuffBits (need : Nat) (level : Bool) (run : Nat) : List Bool → StuffedRead
  | [] => { data := [], level := level, run := run, rest := [] }
  | b :: bs =>
    if need = 0 then { data := [], level := level, run := run, rest := b :: bs }
    else if run = 5 then
      if b = level then { data := [], level := level, run := 6, rest := bs } else unstuffBits need b 1 bs
    else
      let r := unstuffBits (need - 1) b (if b = level then run + 1 else 1) bs
      { r with data := b :: r.data }

/-- The recessive bits in a row at the point reached. -/
def StuffedRead.recessive (r : StuffedRead) : Nat := if r.level then r.run else 0

/-! ### Judging the bits of a frame (R169 steps 1 to 3) -/

/-- The number some bits spell, most significant first (R165). -/
def numberOf (bits : List Bool) : Nat := bits.foldl (fun n b => 2 * n + b.toNat) 0

/-- Bits from the start bit to the end of the length field (R165). -/
def headBits : Nat := 26

/-- Why a frame is discarded (R169 steps 1 to 3). -/
inductive DiscardCause where
  | badLength | checkFailure | unknownKind
deriving DecidableEq, Repr

/-- Kind numbers 0 and 31 are not used (12.1). -/
def kindUnknown (k : Nat) : Bool := k == 0 || k == 31

/-- The check of R166 fails: `checked` the bits from the kind field to the last of the payload, `check` the check byte. -/
def checkFails (checked check : List Bool) : Bool := crc8 checked != BitVec.ofNat 8 (numberOf check)

/-- A frame's bits from its start bit on, judged by the first three steps of R169: why it is discarded, if it is, and the
point the receiver has reached. A frame that ends before its check byte is a check failure (R168, log 28). -/
def judgeBits (bits : List Bool) : Option DiscardCause × StuffedRead :=
  let head := unstuffBits headBits true 0 bits
  let n := numberOf ((head.data.drop 18).take 8)
  if head.data.length < headBits then (some .checkFailure, head)
  else if 120 < n then (some .badLength, head)
  else
    let body := unstuffBits (8 * n + 8) head.level head.run head.rest
    if body.data.length < 8 * n + 8 then (some .checkFailure, body)
    else if checkFails (head.data.drop 8 ++ body.data.take (8 * n)) (body.data.drop (8 * n)) then
      (some .checkFailure, body)
    else if kindUnknown (numberOf ((head.data.drop 8).take 5)) then (some .unknownKind, body)
    else (none, body)

end Sys2Proof.Machine
end

