-- ==== Sys2Proof/Machine/Link.lean ====
section
/-! DEFINITION. The Link Controller (chapter 10): judging a received frame, sending, the forming of PRESENCE, and the
frames and line events that end in it. -/

namespace Sys2Proof.Machine

/-! ### Receiving (R169) -/

/-- The last-heard time of a sender is renewed (R169 step 3 passed). -/
def renewHeard (st : Station) (s : State) : State := modifyPeer st (fun p => { p with lastHeard := s.now }) s

/-- A frame is counted bad-length (R169 step 1; R187). -/
def countBadLength (s : State) : State := { s with link := { s.link with badLengths := raise16 s.link.badLengths 1 } }

/-- The receiver waits for a free line, so many recessive bits in a row having been read, or no longer does (R165). -/
def setWaitFree (v : Option Nat) (s : State) : State := { s with link := { s.link with waitFree := v } }

/-- A delivered frame is counted (R169). -/
def countReceived (s : State) : State := { s with link := { s.link with received := raise16 s.link.received 1 } }

/-- Steps 4 to 6 of R169 for a frame that has passed the first three: ignored, LINK_SILENT set, or delivered. -/
def judge (f : RxFrame) (act : State → State) (s : State) : State :=
  if !f.broadcast && f.dest != ownStation s then s
  else if f.sender = ownStation s then setLinkSilent s
  else act (countReceived s)

/-- A frame received from the line (R169). It began on a free line, so a wait for one is over (R165, log 28). -/
def receive (f : RxFrame) (act : State → State) (s : State) : Host.Outcome State Fault Refusal :=
  whileRunning (fun s =>
    if 120 < f.payload.length then setWaitFree (some 0) (countBadLength s)
    else judge f act (renewHeard f.sender (setWaitFree none s))) s

/-- A frame that is not a request is taken when its length is its layout's; otherwise it is discarded and counted
(R187). -/
def takeLength (ok : Bool) (act : State → State) (s : State) : State := if ok then act s else countBadLength s

/-- A frame of a fixed payload length (R187). -/
def takeFixed (n : Nat) (f : RxFrame) (act : State → State) (s : State) : State :=
  takeLength (f.payload.length == n) act s

/-! ### FRAME_DISCARDED (R165, R169 steps 1 to 3) -/

/-- The counter of a discarded frame rises (R169). -/
def countDiscard (c : DiscardCause) (s : State) : State :=
  match c with
  | .badLength => countBadLength s
  | .checkFailure => { s with link := { s.link with checkFailures := raise16 s.link.checkFailures 1 } }
  | .unknownKind => { s with link := { s.link with unknownKinds := raise16 s.link.unknownKinds 1 } }

/-- The wait for a free line as some bits leave it: over once ten recessive bits in a row have been read (R165). -/
def waitAfter (n : Nat) (bits : List Bool) : Option Nat :=
  if (awaitFree n bits).1 < freeRun then some (awaitFree n bits).1 else none

/-- The receiver looks for a start bit and reads the frame that begins there: the first of steps 1 to 3 that fails
raises its counter, and the bits left are read for a free line. A frame that passes all three is not discarded, and the
command changes nothing; it comes by the row of its kind (R165, R169, log 28). -/
def hearFrame (bits : List Bool) (s : State) : State :=
  match bits.dropWhile id with
  | [] => s
  | frame =>
    match judgeBits frame with
    | (none, _) => s
    | (some c, r) => setWaitFree (waitAfter r.recessive r.rest) (countDiscard c s)

/-- FRAME_DISCARDED, with the levels read from the line: a receiver that waits looks for a start bit only once the line
is free (R165, R169). -/
def execFrameDiscarded (bits : List Bool) (s : State) : Host.Outcome State Fault Refusal :=
  whileRunning (fun s =>
    match s.link.waitFree with
    | none => hearFrame bits s
    | some n =>
      match waitAfter n bits with
      | some m => setWaitFree (some m) s
      | none => hearFrame (awaitFree n bits).2 (setWaitFree none s)) s

/-! ### Answer kinds taken by the requesting station (12.1, R187) -/

/-- ANSWER: 9 bytes; this part asks nothing of another, so no block acts on it. -/
def execAnswer (f : RxFrame) (s : State) : Host.Outcome State Fault Refusal := receive f (takeFixed 9 f id) s

/-- STATUS: at least 3 bytes. -/
def execStatus (f : RxFrame) (s : State) : Host.Outcome State Fault Refusal :=
  receive f (takeLength (decide (3 ≤ f.payload.length)) id) s

/-- FETCH_DATA: 2 to 98 bytes. -/
def execFetchData (f : RxFrame) (s : State) : Host.Outcome State Fault Refusal :=
  receive f (takeLength (decide (2 ≤ f.payload.length) && decide (f.payload.length ≤ 98)) id) s

/-! ### Sending (R167, R168) -/

/-- The age stamped into a notice: windows since its opening window, at most 255; 0 when the windows have been renumbered
since (R26). -/
def noticeAge (s : State) (f : TxFrame) : Nat :=
  match f.openingWindow with
  | some w => min 255 (s.sampling.latestWindow - w)
  | none => 0

/-- The age is stamped into a TRIGGER_NOTICE (R26, R167). -/
def stampAge (s : State) (f : TxFrame) : TxFrame :=
  if f.kind = .triggerNotice then { f with payload := patchBytes f.payload 5 (u8 (noticeAge s f)) } else f

/-- A frame of the queue is in transmission. -/
def isSending (l : Link) : Bool := l.queue.any TxFrame.inTx

/-- The first frame a test picks is replaced. -/
def replaceFirst (p : TxFrame → Bool) (f : TxFrame → TxFrame) : List TxFrame → List TxFrame
  | [] => []
  | g :: gs => if p g then f g :: gs else g :: replaceFirst p f gs

/-- An attempt begins with a frame: its age is stamped, it is in transmission, its bits go on the line (R165, R167). -/
def beginAttempt (f : TxFrame) (s : State) : State :=
  let g := { stampAge s f with inTx := true }
  { s with link := { s.link with
      queue := replaceFirst (fun x => !heldBack s x) (fun _ => g) s.link.queue
      txBits := frameBits (ownStation s) g } }

/-- TRANSMIT_ATTEMPT: the line becomes free, which ends a wait for it, and the first frame that is not held back is
taken (R165, R167, R171, log 28). -/
def execTransmitAttempt (s : State) : Host.Outcome State Fault Refusal :=
  whileRunning (fun s =>
    let s := setWaitFree none s
    if isSending s.link then s
    else
      match s.link.queue.find? fun f => !heldBack s f with
      | none => s
      | some f => beginAttempt f s) s

/-- The frame in transmission stays in the queue, no longer in transmission (R167, R168). -/
def Link.stopAttempt (l : Link) : Link :=
  { l with queue := l.queue.map fun g => { g with inTx := false }, txBits := [] }

/-- ARBITRATION_LOSS (R167). -/
def execArbitrationLoss (s : State) : Host.Outcome State Fault Refusal :=
  whileRunning (fun s =>
    if isSending s.link then
      { s with link := { s.link.stopAttempt with arbitrationLosses := raise16 s.link.arbitrationLosses 1 } }
    else s) s

/-- BIT_ERROR_ABORT (R168). -/
def execBitErrorAbort (s : State) : Host.Outcome State Fault Refusal :=
  whileRunning (fun s =>
    if isSending s.link then
      { s with link := { s.link.stopAttempt with bitErrors := raise16 s.link.bitErrors 1 } }
    else s) s

/-- FRAME_SENT: the frame leaves the queue and is counted (R167). -/
def execFrameSent (s : State) : Host.Outcome State Fault Refusal :=
  whileRunning (fun s =>
    if isSending s.link then
      { s with link := { s.link with
          queue := s.link.queue.filter fun g => !g.inTx
          txBits := []
          sent := raise16 s.link.sent 1 } }
    else s) s

/-! ### PRESENCE (R173) -/

/-- Printer fitted and paper present as one byte (12.1). -/
def printerByte (s : State) : Nat := (if s.pins.straps.prn then 1 else 0) + (if paperPresent s then 2 else 0)

/-- The payload of a PRESENCE as formed now (R173, 12.1). -/
def presencePayload (s : State) : List Byte :=
  u8 (surveyStateCode s.survey.running) ++ u16 (presenceSurveyId s) ++ u16 s.store.freeCount ++ u16 s.agreement.revision
    ++ u8 (printerByte s) ++ u8 s.supply.state.code ++ u8 s.supply.cause.code

/-- A PRESENCE is formed and handed over (R173). -/
def handPresence (s : State) : State := broadcast .presence (presencePayload s) s

/-- PRESENCE_TIMER: every 1000 ms (R173). -/
def execPresenceTimer (s : State) : Host.Outcome State Fault Refusal :=
  whileRunning (fun s =>
    let due := s.link.presenceTimer
    handPresence { s with now := max s.now due, link := { s.link with presenceTimer := due + 1000000 } }) s

end Sys2Proof.Machine
end

