-- ==== Sys2Proof/Machine/Agreements.lean ====
section
/-! DEFINITION. The Agreement Unit's commands (chapter 7): its timers, the frames it takes, and the endings at a survey
end. -/

namespace Sys2Proof.Machine

/-! ### OFFERS timers (R116) -/

/-- OFFERS_SEND_LIMIT_EXPIRY: a waiting OFFERS is handed over (R116). -/
def execOffersSendLimitExpiry (s : State) : Host.Outcome State Fault Refusal :=
  whileRunning (fun s => onExpiry s.agreement.sendLimit (fun s =>
    let s := { s with agreement := { s.agreement with sendLimit := none } }
    if s.agreement.pendingOffers then
      if s.survey.running && !s.link.silent then handOverOffers s
      else { s with agreement := { s.agreement with pendingOffers := false } }
    else s) s) s

/-- OFFERS_REFRESH_TIMER: 10 000 ms since the last OFFERS (R116). -/
def execOffersRefreshTimer (s : State) : Host.Outcome State Fault Refusal :=
  whileRunning (fun s => onExpiry s.agreement.refresh (fun s =>
    offersDue { s with agreement := { s.agreement with refresh := none } }) s) s

/-! ### The requester record (R118 to R122) -/

/-- The requester record toward a station is changed. -/
def modifyRequester (st : Station) (f : Requester → Requester) (s : State) : State :=
  modifyPeer st (fun p => { p with requester := f p.requester }) s

/-- The provider record for a station is changed. -/
def modifyProvider (st : Station) (f : Provider → Provider) (s : State) : State :=
  modifyPeer st (fun p => { p with provider := p.provider.map f }) s

/-- The requester record toward a station. -/
def requester (s : State) (st : Station) : Requester := (peer s st).requester

/-- The record enters REJECTED with a reason, its retry timer started (R118, R120, R121). -/
def enterRejected (reason : Nat) (s : State) (r : Requester) : Requester :=
  { r with state := .rejected, reason := reason, retryTimer := startTimer s 5000, answerTimer := none }

/-- The record enters ACTIVE with the offer of an accept (R121). -/
def enterActive (o : Offer) (s : State) (r : Requester) : Requester :=
  { r with state := .active, offer := some o, activationMs := surveyMs s, retryTimer := none, answerTimer := none }

/-- Code of the reason SILENT (12.1). -/
def silentReason : Nat := 5

/-- RETRY_TIMER_EXPIRY: selection runs (R118). -/
def execRetryTimerExpiry (st : Station) (s : State) : Host.Outcome State Fault Refusal :=
  whileRunning (fun s => onExpiry (requester s st).retryTimer (fun s =>
    selectOffer st (modifyRequester st (fun r => { r with retryTimer := none }) s)) s) s

/-- ANSWER_TIMER_EXPIRY: REJECTED with SILENT (R120). -/
def execAnswerTimerExpiry (st : Station) (s : State) : Host.Outcome State Fault Refusal :=
  whileRunning (fun s => onExpiry (requester s st).answerTimer (fun s =>
    modifyRequester st (enterRejected silentReason s) s) s) s

/-- The answer names the record's last request (R121). -/
def Requester.asked (r : Requester) (position revision : Nat) : Bool :=
  r.position == position && r.revision == revision

/-- AGREE_ACCEPT (R121). -/
def takeAccept (f : RxFrame) (s : State) : State :=
  let r := requester s f.sender
  let named := r.asked (byteAt f.payload 1) (u16At f.payload 2)
  let awaited := r.state == .requested || (r.state == .rejected && r.reason == silentReason)
  if named && awaited then modifyRequester f.sender (enterActive (Offer.ofBytes f.payload 4) s) s else s

/-- AGREE_ACCEPT: 8 bytes. -/
def execAgreeAccept (f : RxFrame) (s : State) : Host.Outcome State Fault Refusal :=
  receive f (takeFixed 8 f (takeAccept f)) s

/-- AGREE_REJECT (R121). -/
def takeReject (f : RxFrame) (s : State) : State :=
  let r := requester s f.sender
  if r.state == .requested && r.asked (byteAt f.payload 1) (u16At f.payload 2) then
    modifyRequester f.sender (enterRejected (byteAt f.payload 4) s) s
  else s

/-- AGREE_REJECT: 4 bytes. -/
def execAgreeReject (f : RxFrame) (s : State) : Host.Outcome State Fault Refusal :=
  receive f (takeFixed 4 f (takeReject f)) s

/-- An AGREE_END with role PROVIDER, by its reason, taken in ACTIVE (R122). -/
def endRequester (st : Station) (position reason : Nat) (s : State) : State :=
  if (requester s st).state != .active then s
  else if reason = EndReason.givenBack.code then
    if (requester s st).position = position then
      modifyPeer st (fun p => { p with spent := true, requester := enterNoOffer s p.requester }) s
    else s
  else if reason = EndReason.surveyEnd.code then modifyRequester st (fun _ => Requester.none) s
  else if reason = EndReason.notHeld.code then modifyRequester st (enterNoOffer s) s
  else s

/-- An AGREE_END with role REQUESTER frees the provider record it names (R127). -/
def endProvider (st : Station) (position : Nat) (s : State) : State :=
  if (peer s st).provider.any (fun p => p.position == position) then
    modifyPeer st (fun p => { p with provider := none }) s
  else s

/-- AGREE_END: 3 bytes; another role or reason is no ending (R122, R127, log 23). -/
def takeEnd (f : RxFrame) (s : State) : State :=
  let position := byteAt f.payload 1
  if byteAt f.payload 2 = 0 then endRequester f.sender position (byteAt f.payload 3) s
  else if byteAt f.payload 2 = 1 then endProvider f.sender position s
  else s

def execAgreeEnd (f : RxFrame) (s : State) : Host.Outcome State Fault Refusal :=
  receive f (takeFixed 3 f (takeEnd f)) s

/-! ### OFFERS (R117, R118, R122) -/

/-- The entries of an OFFERS payload (12.1). -/
def listOf (bs : List Byte) : List ListedOffer :=
  (List.range (byteAt bs 5)).map fun i =>
    { position := byteAt bs (6 + 6 * i), offer := Offer.ofBytes bs (7 + 6 * i) }

/-- The requester record acts on an OFFERS of its peer (R118, R122). -/
def actOnOffers (st : Station) (s : State) : State :=
  match (requester s st).state with
  | .noOffer => selectOffer st s
  | .rejected => selectOffer st s
  | .active =>
    let held := (peer s st).copy.any fun c => (positions c.offers).contains (requester s st).position
    if held then s else selectOffer st s
  | .requested => s
  | .none => s

/-- A peer's OFFERS: the list copy and the peer's survey items are taken, the same-survey relation followed, and the
requester record acts on it (R117). -/
def takeOffers (f : RxFrame) (s : State) : State :=
  if isPeer s f.sender then
    let bs := f.payload
    let before := sameSurvey s f.sender
    let s := modifyPeer f.sender (fun p => { p with
      running := true
      surveyId := u16At bs 1
      revision := u16At bs 3
      copy := some { revision := u16At bs 3, offers := listOf bs }
      spent := false }) s
    actOnOffers f.sender (surveyMoved before f.sender s)
  else s

/-- The length of an OFFERS: 5 + 6 bytes per entry, at most 6 entries (R187). -/
def offersLength (bs : List Byte) : Bool :=
  decide (5 ≤ bs.length) && decide (byteAt bs 5 ≤ 6) && bs.length == 5 + 6 * byteAt bs 5

def execOffers (f : RxFrame) (s : State) : Host.Outcome State Fault Refusal :=
  receive f (takeLength (offersLength f.payload) (takeOffers f)) s

/-! ### The provider side (R123, R124) -/

/-- AGREE_REJECT reasons (12.1). -/
inductive RejectReason where
  | otherSurvey | notServing | stale | withdrawn
deriving DecidableEq, Repr

def RejectReason.code : RejectReason → Nat
  | .otherSurvey => 1
  | .notServing => 2
  | .stale => 3
  | .withdrawn => 4

/-- The refusal of a request, refused STALE making an OFFERS due (R116, R123). -/
def rejectRequest (st : Station) (position revision : Nat) (r : RejectReason) (s : State) : State :=
  let s := send .agreeReject st (u8 position ++ u16 revision ++ u8 r.code) s
  if r = .stale then offersDue s else s

/-- The acceptance of a request (R124). -/
def acceptRequest (st : Station) (revision : Nat) (l : ListedOffer) (s : State) : State :=
  let ms := surveyMs s
  let s := modifyPeer st (fun p => { p with provider := some {
    position := l.position
    offer := l.offer
    activationMs := ms
    hourStart := ms
    captures := 0
    missed := 0
    lastNotice := none } }) s
  send .agreeAccept st (u8 l.position ++ u16 revision ++ l.offer.bytes) s

/-- The survey check of an AGREE_REQUEST (R123 step 1). -/
def inOneSurvey (s : State) (st : Station) (surveyId : Nat) : Bool :=
  s.survey.running && (peer s st).present && (peer s st).running && surveyId == s.survey.id

/-- An AGREE_REQUEST is checked in order and accepted or refused; one from a console is ignored (R123). -/
def takeRequest (f : RxFrame) (s : State) : State :=
  let bs := f.payload
  let position := byteAt bs 3
  let revision := u16At bs 4
  if 8 ≤ f.sender.val then s
  else if !inOneSurvey s f.sender (u16At bs 1) then rejectRequest f.sender position revision .otherSurvey s
  else if !s.survey.settings.serve || s.link.silent then rejectRequest f.sender position revision .notServing s
  else if revision ≠ s.agreement.revision then rejectRequest f.sender position revision .stale s
  else
    match s.agreement.list.find? fun l => l.position == position with
    | none => rejectRequest f.sender position revision .withdrawn s
    | some l => acceptRequest f.sender revision l s

/-- AGREE_REQUEST: 5 bytes. -/
def execAgreeRequest (f : RxFrame) (s : State) : Host.Outcome State Fault Refusal :=
  receive f (takeFixed 5 f (takeRequest f)) s

/-! ### TRIGGER_NOTICE (R125) -/

/-- One hour in ms. -/
def hourMs : Nat := 3600000

/-- The hour is brought up to date (R125 step 3). -/
def Provider.atHour (arrival : Nat) (p : Provider) : Provider :=
  if hourMs ≤ arrival - p.hourStart then
    { p with hourStart := p.hourStart + hourMs * ((arrival - p.hourStart) / hourMs), captures := 0 }
  else p

/-- A notice not served is missed (R125). -/
def Provider.miss (p : Provider) : Provider := { p with missed := raise16 p.missed 1 }

/-- A notice under an ACTIVE provider record, from step 2 on (R125). -/
def serveNotice (f : RxFrame) (p : Provider) (s : State) : State :=
  let st := f.sender
  let surveyId := u16At f.payload 1
  let event := u16At f.payload 3
  let arrival := surveyMs s
  let p := ({ p with lastNotice := some (surveyId, event) }).atHour arrival
  let s := modifyProvider st (fun _ => p) s
  if surveyId ≠ s.survey.id then modifyProvider st Provider.miss s
  else if p.offer.rate ≤ p.captures then modifyProvider st Provider.miss s
  else
    let origin : Origin := {
      station := st, surveyId := surveyId, event := event, arrivalMs := arrival, age := byteAt f.payload 5 }
    match companionCapture origin p.offer s with
    | (s, .ok _) => modifyProvider st (fun q => { q with captures := q.captures + 1 }) s
    | (s, .error _) => modifyProvider st Provider.miss s

/-- The Agreement Unit takes a notice (R125). -/
def judgeNotice (f : RxFrame) (s : State) : State :=
  match (peer s f.sender).provider with
  | none =>
    if sameSurvey s f.sender && u16At f.payload 1 == s.survey.id && s.survey.settings.serve
        && !s.agreement.list.isEmpty then
      send .agreeEnd f.sender (agreeEndPayload 0 0 .notHeld) s
    else s
  | some p =>
    if p.lastNotice = some (u16At f.payload 1, u16At f.payload 3) then s else serveNotice f p s

/-- TRIGGER_NOTICE: 8 bytes; it is heard by the Harmonic Unit and judged by the Agreement Unit (R72, R125). -/
def execTriggerNotice (f : RxFrame) (s : State) : Host.Outcome State Fault Refusal :=
  receive f (takeFixed 8 f fun s => judgeNotice f (noticeHeard s)) s

/-! ### Survey start and end (R127, R129) -/

/-- The end of the provider record for a station at a survey end (R127). -/
def endProvided (s : State) (st : Station) : State :=
  match (peer s st).provider with
  | none => s
  | some p => send .agreeEnd st (agreeEndPayload p.position 0 .surveyEnd) s

/-- The end of the requester record toward a station at a survey end (R127). -/
def endRequested (s : State) (st : Station) : State :=
  if (requester s st).state = .active then
    send .agreeEnd st (agreeEndPayload (requester s st).position 1 .surveyEnd) s
  else s

/-- Every agreement ends at an accepted SURVEY_END (R127). -/
def endAgreements (s : State) : State :=
  dropAgreements (allStations.foldl endRequested (allStations.foldl endProvided s))

/-- The requester record of one peer at an accepted SURVEY_START (R129). -/
def seekAtStart (s : State) (st : Station) : State :=
  if sameSurvey s st && s.survey.settings.seek then modifyRequester st (enterNoOffer s) s else s

/-- The Agreement Unit's changes at an accepted SURVEY_START: the list formed, the revision raised by exactly 1, the
requester records set, the first OFFERS due at once (R115, R116, R129). -/
def agreementsStart (s : State) : State :=
  offersDue (allStations.foldl seekAtStart (replaceList (raiseRevision s)))

end Sys2Proof.Machine
end

