-- ==== Sys2Proof/Machine/Raster.lean ====
section
/-! DEFINITION. The rasteriser and the strobes of a dot row (09, 9.5 and 9.6, R160 to R162). -/

namespace Sys2Proof.Machine

/-! ### Render settings of a job -/

/-- A job printed with cells 9 dots wide; another width than 8 or 9 is a free choice (R151, log 20). -/
def Render.isWide (r : Render) : Bool :=
  if r.cellWidth = 9 then true else if r.cellWidth = 8 then false else Config.widthOutside r.cellWidth

/-- Cells of a line at the job's cell width (R151). -/
def Render.lineCells (r : Render) : Nat := if r.isWide then 49 else 56

/-- Black strobe time in microseconds by energy level; free above 3 (R162, log 20). -/
def blackMicros (energy : Nat) : Nat := if energy ≤ 3 then 300 + 50 * energy else Config.strobeOutside energy

/-- Red strobe time: 60 % of the black, floored (R162). -/
def redMicros (energy : Nat) : Nat := 60 * blackMicros energy / 100

/-! ### Cells to dots (R160) -/

/-- A code for which the ROM holds a glyph (R160 step 2). -/
def hasGlyph (code : Nat) : Bool := (0x20 ≤ code && code ≤ 0x7E) || (0xC0 ≤ code && code ≤ 0xDF)

/-- A table code (9.5). -/
def isTableCode (code : Nat) : Bool := 0xC0 ≤ code && code ≤ 0xDF

/-- The 8 dots of a glyph row, leftmost first: all off for a space and for a code without a glyph (R151, R160 steps 2
and 3). -/
def fontRow (bank code row : Nat) : List Bool :=
  if hasGlyph code && code != 0x20 then bitsOf 8 (Config.fontDots bank code row).toNat else List.replicate 8 false

/-- The ninth dot of a wide cell (R160 step 4). -/
def ninthDot (wide : Bool) (code : Nat) (dots : List Bool) : List Bool :=
  if wide then dots ++ [isTableCode code && dots.getLastD false] else dots

/-- The dots of a cell in a font row (R160). -/
def cellDots (r : Render) (row : Nat) (c : LineCell) : List Bool :=
  let dots := ninthDot r.isWide c.code.toNat (fontRow (if c.fontB then r.bankB else r.bankA) c.code.toNat row)
  let dots := if c.underline && row == 15 then dots.map fun _ => true else dots
  if c.inverse then dots.map not else dots

/-- A space with no attribute set. -/
def LineCell.blank : LineCell := { code := 0x20, fontB := false, red := false, underline := false, inverse := false }

/-- The cells of a line laid onto the line width (R151). -/
def laidCells (r : Render) (cells : List LineCell) : List LineCell :=
  cells.take r.lineCells ++ List.replicate (r.lineCells - cells.length) LineCell.blank

/-- The dots of a font row with the pass of each: on and red, for dots 0 on (R160, R161). -/
def rowDots (r : Render) (twoc : Bool) (row : Nat) (cells : List LineCell) : List (Bool × Bool) :=
  (laidCells r cells).flatMap fun c => (cellDots r row c).map fun on => (on, c.red && twoc)

/-- Dots as a number, dot 0 the least significant. -/
def dotsNat (l : List Bool) : Nat := l.foldr (fun b n => 2 * n + (if b then 1 else 0)) 0

/-- The black and the red pattern of a row (R161). -/
def blackPass (l : List (Bool × Bool)) : List Bool := l.map fun x => x.1 && !x.2
def redPass (l : List (Bool × Bool)) : List Bool := l.map fun x => x.1 && x.2

/-! ### Strobes (R162) -/

/-- Dots on in a group of 112 of a pass. -/
def groupCount (pass : List Bool) (g : Nat) : Nat := (((pass.drop (112 * g)).take 112).filter id).length

/-- The strobes of a group of a pass (R162). -/
def groupStrobes (red : Bool) (micros : Nat) (pass : List Bool) (g : Nat) : List HeadStrobe :=
  if groupCount pass g = 0 then []
  else if groupCount pass g ≤ 56 then [{ red := red, group := g, half := 0, micros := micros }]
  else [{ red := red, group := g, half := 1, micros := micros }, { red := red, group := g, half := 2, micros := micros }]

/-- The strobes of a pass; one with no dot on has none (R162). -/
def passStrobes (red : Bool) (micros : Nat) (pass : List Bool) : List HeadStrobe :=
  (List.range 4).flatMap (groupStrobes red micros pass)

/-- A dot row of the two passes of some dots, black first (R161, R162). -/
def rowOf (energy : Nat) (l : List (Bool × Bool)) : DotRow where
  feed := false
  black := BitVec.ofNat 448 (dotsNat (blackPass l))
  red := BitVec.ofNat 448 (dotsNat (redPass l))
  strobes := passStrobes false (blackMicros energy) (blackPass l) ++ passStrobes true (redMicros energy) (redPass l)

/-- A row with every dot off: a motor step alone (R160, R162). -/
def blankRow (feed : Bool) : DotRow where
  feed := feed
  black := 0
  red := 0
  strobes := []

/-- Dot rows of a line: 16, or 32 at double height (R153). -/
def BufferLine.height (l : BufferLine) : Nat := if l.double then 32 else 16

/-- The font row printed at a dot row (R160 step 1). -/
def BufferLine.fontRowAt (l : BufferLine) (r : Nat) : Nat := if l.double then r / 2 else r

/-- Dot row `r` of a line, or a gap row after its last (R153, R160). -/
def lineRow (render : Render) (twoc : Bool) (l : BufferLine) (r : Nat) : DotRow :=
  if r < l.height then rowOf render.energy (rowDots render twoc (l.fontRowAt r) l.cells) else blankRow false

end Sys2Proof.Machine
end

