-- ==== Sys2Proof/Machine/Printer.lean ====
section
/-! DEFINITION. The Print Unit (chapter 9): the queue, lines and credit, the endings of a job, pauses, the head. -/

namespace Sys2Proof.Machine

/-! ### Jobs -/

/-- PRINT_END outcomes given by the printer station (12.1). -/
inductive Outcome where
  | printed | cancelled | originLost | lineTimeout | duplicate | noJob
deriving DecidableEq, Repr

def Outcome.code : Outcome → Nat
  | .printed => 1
  | .cancelled => 2
  | .originLost => 3
  | .lineTimeout => 4
  | .duplicate => 5
  | .noJob => 6

/-- The Print Unit takes frames at a station strapped PRN, from recorder stations (R147). -/
def printUnitTakes (s : State) (st : Station) : Bool := s.pins.straps.prn && decide (st.val < 8)

/-- A JOB_OPEN, a PRINT_LINE or a JOB_CANCEL as the Print Unit finds it: one it does not take is ignored, whatever its
length (R147, R187). -/
def toPrintUnit (f : RxFrame) (act : State → State) (s : State) : State :=
  if printUnitTakes s f.sender then act s else s

/-- A job is ACTIVE or PAUSED. -/
def Job.isRunning (j : Job) : Bool := j.state != .queued

/-- The job from a station (R148). -/
def jobFrom (s : State) (st : Station) : Option Job := s.printer.queue.find? fun j => j.origin == st

/-- The job that is ACTIVE or PAUSED (R149). -/
def runningJob (s : State) : Option Job := s.printer.queue.find? Job.isRunning

/-- The ACTIVE job. -/
def activeJob (s : State) : Option Job := s.printer.queue.find? fun j => j.state == .active

/-- The job from a station is changed. -/
def modifyJob (st : Station) (f : Job → Job) (s : State) : State :=
  { s with printer := { s.printer with queue := s.printer.queue.map fun j => if j.origin == st then f j else j } }

/-- The line timer runs afresh while a job is ACTIVE with credit outstanding, and is stopped otherwise (R155). -/
def restartLineTimer (s : State) : State :=
  let runs := (activeJob s).any fun j => decide (0 < j.credit)
  { s with printer := { s.printer with lineTimer := if runs then startTimer s 10000 else none } }

/-- A PRINT_END goes to an origin (R148, R150, R157). -/
def sendPrintEnd (st : Station) (number : Nat) (o : Outcome) (s : State) : State :=
  send .printEnd st (u16 number ++ u8 o.code) s

/-! ### Credit (R152) -/

/-- The free room of the running job (R152). -/
def freeRoom (s : State) (j : Job) : Nat := 16 - (j.credit + s.printer.buffer.length)

/-- Credit of the whole free room is granted once it reaches 4 (R152). -/
def testCredit (s : State) : State :=
  match runningJob s with
  | none => s
  | some j =>
    if 4 ≤ freeRoom s j && !j.lastTaken then
      let grant := freeRoom s j
      let s := send .printGo j.origin (u16 j.number ++ u8 grant) s
      restartLineTimer (modifyJob j.origin (fun j => { j with credit := j.credit + grant }) s)
    else s

/-! ### The head (R149, R153, R160 to R163) -/

/-- The head is IDLE and no row is being made. -/
def headIdle (s : State) : Bool := s.printer.head == .idle && s.printer.row.isNone

/-- The head begins a row of the oldest line of the ACTIVE job (R153). -/
def startLineRow (r : Nat) (s : State) : State :=
  match activeJob s, s.printer.buffer with
  | some j, l :: _ =>
    { s with printer := { s.printer with
        head := .printing r, row := some (lineRow j.render s.pins.straps.twoc l r) } }
  | _, _ => s

/-- The head goes on when the printer is ready and no row is being made: with its feed, with the line it is printing, or
with the oldest line of the buffer (R153, R159, R163). -/
def driveHead (s : State) : State :=
  if !s.printer.ready || s.printer.row.isSome then s
  else
    match s.printer.head with
    | .feeding _ => { s with printer := { s.printer with row := some (blankRow true) } }
    | .printing r => startLineRow r s
    | .idle => startLineRow 0 s

/-- The head job is activated when nothing stands against it (R149). -/
def considerActivation (s : State) : State :=
  match s.printer.queue with
  | [] => s
  | j :: _ =>
    if (runningJob s).isNone && s.printer.buffer.isEmpty && headIdle s && s.printer.ready then
      let s := modifyJob j.origin (fun j => { j with state := .active, credit := 16, expected := 1 }) s
      restartLineTimer (send .printGo j.origin (u16 j.number ++ u8 16) s)
    else s

/-- Rows of the feed that follows a job ended while ACTIVE (R157, R163). -/
def feedRows : Nat := 48

/-- The head of a running job that ends: fed when it was ACTIVE, at rest when it was PAUSED (R157). -/
def headAfterEnd (j : Job) : HeadState := if j.state = .active then .feeding feedRows else .idle

/-- A job ends (R157). DESIGN CHOICE: the head of an ACTIVE job reads FEEDING with its 48 rows at once, also while the dot
row in progress of its cut line is completed (log 67, unsafe). -/
def endJob (j : Job) (o : Outcome) (s : State) : State :=
  let s := { s with printer := { s.printer with queue := s.printer.queue.filter fun x => x.origin != j.origin } }
  let s := if j.isRunning then
      driveHead { s with printer := { s.printer with
        buffer := [], lineTimer := none, head := headAfterEnd j } }
    else s
  let s := sendPrintEnd j.origin j.number o s
  let s := if o = .printed then
      { s with printer := { s.printer with jobsPrinted := raise16 s.printer.jobsPrinted 1 } }
    else { s with printer := { s.printer with jobsEnded := raise16 s.printer.jobsEnded 1 } }
  considerActivation s

/-- A line leaves the buffer after its last gap row (R153). -/
def lineLeaves (s : State) : State :=
  match runningJob s, s.printer.buffer with
  | some j, l :: rest =>
    let s := modifyJob j.origin (fun j => { j with printed := j.printed + 1 })
      { s with printer := { s.printer with head := .idle, buffer := rest } }
    if l.last then
      match jobFrom s j.origin with
      | some j => endJob j .printed s
      | none => s
    else driveHead (testCredit s)
  | _, _ => s

/-! ### Pauses (R158) -/

/-- A PRINT_STATE goes to an origin (R158, R159). -/
def sendPrintState (j : Job) (paused : Bool) (s : State) : State :=
  send .printState j.origin (u16 j.number ++ u8 (pausedCode paused)) s

/-- An ACTIVE job enters PAUSED (R158). -/
def pauseActive (s : State) : State :=
  match activeJob s with
  | none => s
  | some j =>
    let s := modifyJob j.origin (fun j => { j with state := .paused }) s
    restartLineTimer (sendPrintState j true s)

/-- The pause that waited for the row in progress: made when the row is completed and the printer is still not ready
(R158, log 57). -/
def pauseUnready (s : State) : State := if s.printer.ready then s else pauseActive s

/-- The printer stops being ready: an ACTIVE job enters PAUSED at once, or when the row in progress is completed; the
head rests after it (R158). -/
def loseReady (s : State) : State :=
  let s := { s with printer := { s.printer with settleTimer := none, ready := false } }
  if s.printer.row.isSome then s else pauseActive s

/-! ### Rows made (R153, R163) -/

/-- Rows of the line being printed, its gap rows included (R153). -/
def lineRows (s : State) : Nat := (s.printer.buffer.head?.elim 16 BufferLine.height) + 2

/-- A row has been made and the paper advanced (R162). -/
def rowMade (s : State) : State :=
  { s with printer := { s.printer with row := none, motorSteps := s.printer.motorSteps + 1 } }

/-- The head goes on after a row of a line (R153). -/
def afterLineRow (s : State) : State :=
  match s.printer.head with
  | .printing r =>
    if r + 1 < lineRows s then driveHead { s with printer := { s.printer with head := .printing (r + 1) } }
    else lineLeaves s
  | .feeding _ => driveHead s
  | .idle => considerActivation s

/-- A row of a line has been made (R153, R158, R162). -/
def lineRowDone (s : State) : State := pauseUnready (afterLineRow (rowMade s))

/-- The head goes on after a feed row (R163). -/
def afterFeedRow (s : State) : State :=
  match s.printer.head with
  | .feeding n =>
    if n ≤ 1 then considerActivation { s with printer := { s.printer with head := .idle } }
    else driveHead { s with printer := { s.printer with head := .feeding (n - 1) } }
  | _ => s

/-- A feed row has been made (R163); no job is ACTIVE during a feed. -/
def feedRowDone (s : State) : State := afterFeedRow (rowMade s)

/-! ### JOB_OPEN, PRINT_LINE, JOB_CANCEL (R148, R150, R154) -/

/-- The job of a JOB_OPEN, as it is appended (R148). -/
def jobOf (f : RxFrame) : Job where
  origin := f.sender
  number := u16At f.payload 1
  kind := byteAt f.payload 3
  render := { bankA := byteAt f.payload 4, bankB := byteAt f.payload 5, cellWidth := byteAt f.payload 6,
              colour := byteAt f.payload 7, energy := byteAt f.payload 8 }
  estimate := u16At f.payload 9
  state := .queued
  credit := 0
  expected := 1
  lastTaken := false
  received := 0
  printed := 0

/-- A JOB_OPEN is appended, or refused DUPLICATE (R148). -/
def takeJobOpen (f : RxFrame) (s : State) : State :=
  if (jobFrom s f.sender).isSome then sendPrintEnd f.sender (u16At f.payload 1) .duplicate s
  else
    let s := { s with printer := { s.printer with queue := s.printer.queue ++ [jobOf f] } }
    considerActivation
      (send .jobQueued f.sender (u16 (u16At f.payload 1) ++ u8 s.printer.queue.length) s)

/-- A line discarded is counted (R150). -/
def discardLine (s : State) : State :=
  { s with printer := { s.printer with linesDiscarded := raise16 s.printer.linesDiscarded 1 } }

/-- The cells of a PRINT_LINE (12.1). -/
def cellsOf : List Byte → List LineCell
  | code :: attr :: rest => LineCell.ofBytes code attr :: cellsOf rest
  | _ => []

/-- Text as cells in font A, black. -/
def plainCells (bs : List Byte) : List LineCell := bs.map fun b => { LineCell.blank with code := b }

/-- The decimal digits of a number, most significant first, with fuel for its length. -/
def digitsFuel : Nat → Nat → List Byte
  | 0, _ => []
  | k + 1, n => (if n < 10 then [] else digitsFuel k (n / 10)) ++ [BitVec.ofNat 8 (48 + n % 10)]

/-- A number in decimal (R142). -/
def digits (n : Nat) : List Byte := digitsFuel 10 n

/-- The codes of a word. -/
def codesOf (w : String) : List Byte := w.toList.map fun c => BitVec.ofNat 8 c.toNat

/-- The marker line of m missing lines (R150). DESIGN CHOICE: its text begins at cell 1, it is of normal height, and no
cell is underlined or inverse (log 68, unsafe). -/
def markerLine (m : Nat) : BufferLine :=
  { cells := plainCells (codesOf "LINES MISSING " ++ digits m), number := none, last := false, double := false }

/-- A line is taken into the buffer, after a marker line when m lines are missing before it (R150 steps 4 and 5,
R151). DESIGN CHOICE: after a line numbered 65535 the expected line is 65536, by step 4's number plus 1, though the
field table gives 1..65535; every later line of the job is then discarded (log 63, unsafe). -/
def takeLine (f : RxFrame) (j : Job) (s : State) : State :=
  let n := u16At f.payload 3
  let m := n - j.expected
  let cells := cellsOf (f.payload.drop 6)
  let line : BufferLine := {
    cells := cells.take j.render.lineCells, number := some n, last := bitAt f.payload 5 0, double := bitAt f.payload 5 1 }
  let marker := if m = 0 then [] else [markerLine m]
  let credit := if line.last then 0 else j.credit - (m + 1)
  let s := { s with printer := { s.printer with
    buffer := s.printer.buffer ++ marker ++ [line]
    linesMissing := raise16 s.printer.linesMissing m
    cellsDropped := raise16 s.printer.cellsDropped (cells.length - j.render.lineCells) } }
  let s := modifyJob j.origin (fun j => { j with
    credit := credit, expected := n + 1, lastTaken := j.lastTaken || line.last, received := j.received + 1 }) s
  driveHead (testCredit (restartLineTimer s))

/-- A PRINT_LINE is judged (R150). -/
def takePrintLine (f : RxFrame) (s : State) : State :=
  match jobFrom s f.sender with
  | none => sendPrintEnd f.sender (u16At f.payload 1) .noJob (discardLine s)
  | some j =>
    let n := u16At f.payload 3
    if j.state = .queued ∨ j.number ≠ u16At f.payload 1 then discardLine s
    else if j.expected ≤ n ∧ n < j.expected + j.credit then takeLine f j s
    else discardLine s

/-- The length of a PRINT_LINE: 6 bytes and 2 per cell (R187). -/
def printLineLength (bs : List Byte) : Bool := decide (6 ≤ bs.length) && bs.length == 6 + 2 * byteAt bs 6

/-- A JOB_CANCEL ends the sender's job that it names (R154). -/
def takeJobCancel (f : RxFrame) (s : State) : State :=
  match jobFrom s f.sender with
  | none => s
  | some j => if j.number = u16At f.payload 1 then endJob j .cancelled s else s

/-- The line timer expires (R155). -/
def lineTimedOut (s : State) : State :=
  let s := { s with printer := { s.printer with lineTimer := none } }
  match activeJob s with
  | some j => endJob j .lineTimeout s
  | none => s

/-- The job from a station that went absent ends ORIGIN_LOST (R156). -/
def originLost (st : Station) (s : State) : State :=
  match jobFrom s st with
  | some j => if s.pins.straps.prn then endJob j .originLost s else s
  | none => s

/-! ### Readiness (R159) -/

/-- Paper is present and the supply NORMAL (R159). -/
def mayPrint (s : State) : Bool := s.pins.straps.prn && s.pins.paper && s.supply.state == .normal

/-- The settle timer starts when paper is present and the supply NORMAL together (R159). -/
def startSettle (s : State) : State :=
  if mayPrint s then { s with printer := { s.printer with settleTimer := startTimer s 500 } } else s

/-- A PAUSED job returns to ACTIVE, its origin is told, and the line timer starts afresh (R159). -/
def resumeJob (j : Job) (s : State) : State :=
  restartLineTimer (sendPrintState j false (modifyJob j.origin (fun j => { j with state := .active }) s))

/-- The settle timer runs out: the printer is ready, a PAUSED job returns to ACTIVE, or the head completes a feed and
the head job may be activated (R159). A job whose pause still waits for its row was never PAUSED, and goes on
(log 57). -/
def settled (s : State) : State :=
  let s := { s with printer := { s.printer with settleTimer := none, ready := true } }
  match runningJob s with
  | some j => driveHead (testCredit (if j.state = .paused then resumeJob j s else s))
  | none => considerActivation (driveHead s)

/-- PAPER_PRESENT (R159): the sensor's level, and at a running printer station the settle timer. -/
def execPaperPresent (s : State) : Host.Outcome State Fault Refusal :=
  let before := s.pins.paper
  let s := { s with pins := { s.pins with paper := true } }
  .next (if s.powered && !before then startSettle s else s)

end Sys2Proof.Machine
end

