-- ==== Sys2Proof/Machine/Layout.lean ====
section
/-! DEFINITION. Calendar time and the laying of cells on a report line (08, R141, R142). -/

namespace Sys2Proof.Machine

/-! ### Calendar time (R141) -/

/-- The first calendar second beyond the years 2000 to 2099 (R141). -/
def calendarEnd : Nat := 3155760000

/-- The calendar second of a survey ms (R141). -/
def calendarSecond (startSeconds ms : Nat) : Nat := startSeconds + ms / 1000

/-- The day number of a calendar second (R141). -/
def dayNumber (sec : Nat) : Nat := sec / 86400

/-- Lengths of the months (R141). -/
def monthDays (leap : Bool) : List Nat := [31, if leap then 29 else 28, 31, 30, 31, 30, 31, 31, 30, 31, 30, 31]

/-- Month and day, counted from 1, of a day of the year counted from 0. -/
def monthOf : List Nat → Nat → Nat → Nat × Nat
  | [], m, d => (m, d + 1)
  | n :: ns, m, d => if d < n then (m, d + 1) else monthOf ns (m + 1) (d - n)

/-- Year, month and day of a day number: blocks of 1461 days, each beginning with a leap year (R141). -/
def dateOf (d : Nat) : Nat × Nat × Nat :=
  let block := d / 1461
  let r := d % 1461
  if r < 366 then (2000 + 4 * block, monthOf (monthDays true) 1 r)
  else (2001 + 4 * block + (r - 366) / 365, monthOf (monthDays false) 1 ((r - 366) % 365))

/-- A number in `w` decimal digits with leading zeros. -/
def zeroPadded (w n : Nat) : List Byte := List.replicate (w - (digits n).length) 0x30 ++ digits n

/-- The date of a calendar second, YYYY-MM-DD; '-' characters beyond 2099 (R141). -/
def dateText (sec : Nat) : List Byte :=
  if calendarEnd ≤ sec then List.replicate 10 0x2D
  else
    let d := dateOf (dayNumber sec)
    zeroPadded 4 d.1 ++ [0x2D] ++ zeroPadded 2 d.2.1 ++ [0x2D] ++ zeroPadded 2 d.2.2

/-- Hours, minutes and seconds of a calendar second, hh:mm:ss; '-' characters beyond 2099 (R141). -/
def clockText (sec : Nat) : List Byte :=
  if calendarEnd ≤ sec then List.replicate 8 0x2D
  else
    let t := sec % 86400
    zeroPadded 2 (t / 3600) ++ [0x3A] ++ zeroPadded 2 (t / 60 % 60) ++ [0x3A] ++ zeroPadded 2 (t % 60)

/-- The time of a survey ms, hh:mm:ss.mmm; '-' characters beyond 2099 (R141). -/
def timeText (startSeconds ms : Nat) : List Byte :=
  let sec := calendarSecond startSeconds ms
  if calendarEnd ≤ sec then List.replicate 12 0x2D
  else clockText sec ++ [0x2E] ++ zeroPadded 3 (ms % 1000)

/-! ### Numbers in columns (R142) -/

/-- Text right-aligned in `w` cells; too long for its column, '*' in every cell (R142). -/
def rightAligned (w : Nat) (t : List Byte) : List Byte :=
  if w < t.length then List.replicate w 0x2A else List.replicate (w - t.length) 0x20 ++ t

/-- A number right-aligned (R142). -/
def numberText (w n : Nat) : List Byte := rightAligned w (digits n)

/-- Tenths of a percent, with one decimal (R142). -/
def tenthsText (n : Nat) : List Byte := digits (n / 10) ++ [0x2E] ++ zeroPadded 1 (n % 10)

/-- Hundredths of a percent, with two decimals (R142). -/
def hundredthsText (n : Nat) : List Byte := digits (n / 100) ++ [0x2E] ++ zeroPadded 2 (n % 100)

/-! ### Cells of a line (R142) -/

/-- Cells of a line that any cell width can print (R142). -/
def lineWidth : Nat := 49

/-- A line without a cell. -/
def blankLine : List LineCell := List.replicate lineWidth LineCell.blank

/-- Cells put on a line from cell `col` on, counted from 1. -/
def putCells (col : Nat) (cells line : List LineCell) : List LineCell :=
  (line.take (col - 1) ++ cells ++ line.drop (col - 1 + cells.length)).take lineWidth

/-- Text put on a line in font A and black. -/
def putText (col : Nat) (t : List Byte) (line : List LineCell) : List LineCell := putCells col (plainCells t) line

/-- Cells in red when colour is in use and a test holds (R142). -/
def redCells (r : Render) (on : Bool) (cells : List LineCell) : List LineCell :=
  cells.map fun c => { c with red := on && r.colour == 1 }

/-- Cells with underline or inverse set. -/
def underlined (on : Bool) (cells : List LineCell) : List LineCell := cells.map fun c => { c with underline := on }
def inverted (on : Bool) (cells : List LineCell) : List LineCell := cells.map fun c => { c with inverse := on }

/-- The column separator (R142). -/
def separator (r : Render) : Byte := if r.cellWidth = 9 then 0xC1 else 0x20

/-- Separators in the cells named. -/
def putSeparators (r : Render) (cols : List Nat) (line : List LineCell) : List LineCell :=
  cols.foldl (fun l c => putText c [separator r] l) line

/-- A rule line, crossed at the separators (R142). DESIGN CHOICE: it fills cells 1 to 49 (log 73, unsafe). -/
def ruleLine (r : Render) (cols : List Nat) : List LineCell :=
  let wide := r.cellWidth == 9
  cols.foldl (fun l c => putText c [if wide then 0xC2 else 0x2B] l)
    (plainCells (List.replicate lineWidth (if wide then 0xC0 else 0x2D)))

/-- A cell that holds a space with no attribute set. -/
def LineCell.isBlank (c : LineCell) : Bool := decide (c = LineCell.blank)

/-- Trailing blank cells are left off (R142). -/
def trimLine (l : List LineCell) : List LineCell := (l.reverse.dropWhile LineCell.isBlank).reverse

/-! ### Lines for which the manual gives the items and no cells (log 18) -/

/-- Cells that items take at least: each with a space before it. -/
def itemsLength (items : List (List LineCell)) : Nat := total (items.map fun i => i.length + 1)

/-- Items laid one after another from cell `from_` on, each at the column wanted for it as far as the items after it
still fit, and at least one space apart. -/
def layFrom (line : Nat) : Nat → Nat → List (List LineCell) → List LineCell → List LineCell
  | _, _, [], l => l
  | i, from_, x :: xs, l =>
    let col := max from_ (min (Config.itemColumn line i) (lineWidth + 1 - (x.length + itemsLength xs)))
    layFrom line (i + 1) (col + x.length + 1) xs (putCells col x l)

/-- The items of a line laid within 49 cells; `line` names the line (log 18). -/
def layItems (line : Nat) (items : List (List LineCell)) : List LineCell := layFrom line 0 1 items blankLine

/-- An item of text. -/
def word (w : String) : List LineCell := plainCells (codesOf w)

/-- An item of a number. -/
def num (n : Nat) : List LineCell := plainCells (digits n)

/-- A number, or '-' when absent. -/
def numOr (o : Option Nat) : List LineCell := o.elim (word "-") num

end Sys2Proof.Machine
end

