-- ==== Sys2Proof/Machine/Compose.lean ====
section
/-! DEFINITION. The lines of reports (08, 8.4 to 8.6, R140 to R145): reading the records of the set and composing one
line at a time. -/

namespace Sys2Proof.Machine

/-- A composed line: its cells, its double-height and last flags. -/
structure ReportLine where
  cells : List LineCell
  double : Bool
  last : Bool
deriving DecidableEq, Repr

/-- A line of normal height that is not the last. -/
def plainLine (cells : List LineCell) : Option ReportLine := some { cells := cells, double := false, last := false }

/-! ### Reading the set (R140) -/

/-- A record of the set as it stands; it is missing when the store no longer holds it under the report's hold (R140). -/
def readSet (s : State) (id : Nat) : Option Entry :=
  match findEntry s id with
  | some e => if e.hold && decide (id ≤ s.composer.idLimit) then some e else none
  | none => none

/-- A missing record raises the gone count the first time it is found missing (R140). -/
def markGone (id : Nat) (s : State) : State :=
  if s.composer.set.any fun x => x.recId == id && !x.gone then
    { s with composer := { s.composer with
        gone := s.composer.gone + 1
        set := s.composer.set.map fun x => if x.recId == id then { x with gone := true } else x } }
  else s

/-- Every missing record among some is marked (R140, R145). -/
def markMissing (ids : List Nat) (s : State) : State :=
  ids.foldl (fun s id => if (readSet s id).isNone then markGone id s else s) s

/-- The bytes of a record of the set, when it is present. -/
def readBytes (s : State) (id : Nat) : Option (List Byte) := (readSet s id).map (recordBytes s)

/-- The ids of the set. -/
def setIds (s : State) : List Nat := s.composer.set.map SetItem.recId

/-- The composition cursor is changed. -/
def modifyCursor (f : ReportCursor → ReportCursor) (s : State) : State :=
  { s with composer := { s.composer with cursor := f s.composer.cursor } }

/-- Lines that come next, ahead of those still to compose. -/
def pushJobs (js : List LineJob) (s : State) : State := modifyCursor (fun c => { c with jobs := js ++ c.jobs }) s

/-! ### Heading and closing lines (R142) -/

/-- The title of a report (R142). -/
def titleText (q : ReportRequest) : List Byte :=
  match q.kind with
  | .site => codesOf "SITE REPORT"
  | .eventList => codesOf "EVENT LIST"
  | .eventDetail => codesOf "EVENT " ++ numberText 5 q.event
  | .harmonicSummary => codesOf "HARMONIC SUMMARY"
  | .notes => codesOf "SITE NOTES"

/-- Heading lines 1 to 3 (R142). DESIGN CHOICE: of heading 1 the cells of the title alone carry font B; a blank cell before
it has no attribute set (log 77, unsafe). -/
def headingLine (n : Nat) (s : State) : ReportLine :=
  if n = 1 then
    { cells := layItems 1 [(plainCells (titleText s.composer.request)).map fun c => { c with fontB := true }]
      double := true
      last := false }
  else if n = 2 then
    { cells := layItems 2 [word "STN", num (ownStation s).val, word "SURVEY", num s.composer.survey, word "ID",
        num s.composer.surveyId]
      double := false
      last := false }
  else
    { cells := layItems 3 [word "PRINTED", plainCells (dateText (retainedSeconds s)),
        plainCells (clockText (retainedSeconds s))]
      double := false
      last := false }

/-- The closing line, with its own line number and the gone count (R142). -/
def closingLine (s : State) : ReportLine :=
  { cells := layItems 4 [word "END", word "LINES", num (min 65535 (s.composer.line + 1)), word "GONE",
      num s.composer.gone]
    double := false
    last := true }

/-! ### Events (R143) -/

/-- Separators of an event list. -/
def listSeparators : List Nat := [6, 19, 21, 31, 34, 40, 44]

/-- The column title line of an event list, in inverse; its words are free (R143, log 18). DESIGN CHOICE: the inverse
covers cells 1 to 49, and no cell of the line is a separator (log 73, unsafe). -/
def listTitleCells : List LineCell :=
  inverted true (plainCells ((List.range' 1 lineWidth).map fun i => BitVec.ofNat 8 (0x20 + Config.titleCode i % 95)))

/-- The end ms an event record reads (R188). -/
def eventEnd (bs : List Byte) : Option Nat := presentAt bs 0 (u32At bs 11)

/-- The minimum residuals an event record reads. -/
def eventMinima (bs : List Byte) : Tri Nat := tri16At bs 19

/-- The channels involved, 1, 2 and 3 in their cells, '-' for one not involved (R143). -/
def channelsText (c : ChannelSet) : List Byte :=
  allChannels.map fun ch => if c.get ch then BitVec.ofNat 8 (48 + ch.number) else 0x2D

/-- The residual shown for an event: of its worst channel, or the lowest as the record reads (R143). -/
def shownResidual (bs : List Byte) : Nat :=
  let m := eventMinima bs
  match byteAt bs 25 with
  | 1 => m.v1
  | 2 => m.v2
  | 3 => m.v3
  | _ => min m.v1 (min m.v2 m.v3)

/-- The worst channel, V1 to V3, or '-' in both cells (R143). -/
def worstText (bs : List Byte) : List Byte :=
  if byteAt bs 25 = 0 then [0x2D, 0x2D] else [0x56, BitVec.ofNat 8 (48 + byteAt bs 25)]

/-- The flag cells of a list line: C, E, N, R and O, '.' when clear, red when set (R143). -/
def flagCells (r : Render) (flags : Nat) : List LineCell :=
  (codesOf "CENRO").zipIdx.flatMap fun x =>
    redCells r (flags.testBit x.2) (plainCells [if flags.testBit x.2 then x.1 else 0x2E])

/-- The duration column of an event: end ms less start ms, or OPEN (R143). -/
def durationText (bs : List Byte) : List Byte :=
  match eventEnd bs with
  | some e => numberText 9 (e - u32At bs 7)
  | none => codesOf "OPEN"

/-- The line of an event in a list (R143). -/
def eventCells (r : Render) (startSeconds : Nat) (bs : List Byte) : List LineCell :=
  let l := putSeparators r listSeparators blankLine
  let l := putText 1 (numberText 5 (u16At bs 1)) l
  let l := putText 7 (timeText startSeconds (u32At bs 7)) l
  let l := putCells 20 (redCells r (byteAt bs 5 == 1) (word (if byteAt bs 5 = 1 then "I" else "S"))) l
  let l := putText 22 (durationText bs) l
  let l := putText 32 (worstText bs) l
  let l := putText 35 (rightAligned 5 (tenthsText (shownResidual bs))) l
  let l := putText 41 (channelsText (channelsOf (byteAt bs 26))) l
  putCells 45 (flagCells r (byteAt bs 36)) l

/-- The day of a survey ms. -/
def dayOf (s : State) (ms : Nat) : Nat := dayNumber (calendarSecond s.composer.startSeconds ms)

/-- An event of a list: its date line first when the date differs from the event shown before it; GONE when it is
missing (R140, R143). -/
def composeListEvent (dated : Bool) (id : Nat) (notes : List Nat) (s : State) : State × Option ReportLine :=
  match readBytes s id with
  | none => (markGone id s, plainLine (putText 7 (codesOf "GONE") blankLine))
  | some bs =>
    let day := dayOf s (u32At bs 7)
    if !dated && s.composer.cursor.lastDay != some day then
      (pushJobs [.listEventLine id notes] (modifyCursor (fun c => { c with lastDay := some day }) s),
        plainLine (putText 1 (dateText (calendarSecond s.composer.startSeconds (u32At bs 7))) blankLine))
    else
      (pushJobs (notes.map fun n => LineJob.listNote n 0) s,
        plainLine (eventCells s.composer.render s.composer.startSeconds bs))

/-- Characters of a text line. -/
def textLineLength : Nat := 43

/-- The lines a text takes. -/
def textLines (t : List Byte) : Nat := ceilDiv t.length textLineLength

/-- Text line n of a note, in cells 7 to 49, underlined when the note is struck (R143, R144). -/
def putTextLine (bs : List Byte) (n : Nat) (l : List LineCell) : List LineCell :=
  putCells 7 (underlined (byteAt bs 9 == 1)
    (plainCells (((noteText bs).drop (textLineLength * n)).take textLineLength))) l

/-- A note attached to a listed event, its text line n; the first holds the note number (R143). A note found missing, at
whichever of its lines, gives one line in its place, and no more (R140); its look is that of a missing event
(log 61). -/
def composeListNote (id n : Nat) (s : State) : State × Option ReportLine :=
  match readBytes s id with
  | none => (markGone id s, plainLine (putText 7 (codesOf "GONE") blankLine))
  | some bs =>
    let l := if n = 0 then putText 1 (numberText 5 (u16At bs 1)) blankLine else blankLine
    (if n + 1 < textLines (noteText bs) then pushJobs [.listNote id (n + 1)] s else s, plainLine (putTextLine bs n l))

/-! ### Event detail (R143) -/

/-- Names of the capture statuses by code (12.2). -/
def statusName (c : Nat) : String :=
  match c with
  | 0 => "NONE"
  | 1 => "FULL"
  | 2 => "PARTIAL"
  | 3 => "SHED"
  | _ => "-"

/-- The names of flags that are set. -/
def setNames (flags : Nat) (names : List String) : List (List LineCell) :=
  names.zipIdx.filterMap fun x => if flags.testBit x.2 then some (word x.1) else none

/-- Names of an event's flags and of a waveform's flags, in bit order (12.2). -/
def eventFlagNames : List String := ["CUT_SHORT", "SURVEY_END", "INVALID_SEEN", "FOLLOWS_RESUME", "OVERRANGE_SEEN"]
def waveFlagNames : List String := ["CLIPPED", "TRUNCATED", "CUT_SHORT"]

/-- The descriptor of a waveform of the set, when it is present (R143). -/
def readWave (s : State) (w : Option Nat) : Option Descriptor := (w.bind (readSet s)).bind Entry.desc

/-- The value line of a waveform: first cycle, cycles total, pre taken, post taken (R143). -/
def waveItems (d : Option Descriptor) : List (List LineCell) :=
  [numOr (d.map Descriptor.firstCycle), numOr (d.map Descriptor.total), numOr (d.map Descriptor.preTaken),
    numOr (d.map Descriptor.postTaken)]

/-- The flags line of a waveform (R143). -/
def waveFlagItems (d : Option Descriptor) : List (List LineCell) :=
  d.elim [word "-"] fun d => setNames d.flagByte waveFlagNames

/-- A date and time as items. -/
def dateItems (startSeconds ms : Nat) : List (List LineCell) :=
  [plainCells (dateText (calendarSecond startSeconds ms)), plainCells (timeText startSeconds ms)]

/-- The items of line n, 1 to 16, of an event detail (R143). Only the words INTERRUPTION and the flag names are red, and
names that do not fit are cut at cell 49 (log 54). DESIGN CHOICE: lines 9 and 12 show '-' for the record id when the
event record's waveform id is absent; R143 gives '-' for lines 10, 11, 13 and 14 only (log 62, unsafe). DESIGN CHOICE:
PINS of an event still OPEN is its record's byte 35, 0 until the close, whatever the directory's count (log 69,
unsafe). DESIGN CHOICE: line 4 shows the word OPEN for the duration of an event without end ms; R143 gives OPEN for line
3 and for the list's cells (log 70, unsafe). -/
def detailItems (r : Render) (startSeconds : Nat) (bs : List Byte) (start end_ : Option Descriptor) (n : Nat) :
    List (List LineCell) :=
  let m := eventMinima bs
  match n with
  | 1 => [word "CLASS", if byteAt bs 5 = 1 then redCells r true (word "INTERRUPTION") else word "SAG"]
  | 2 => word "START" :: dateItems startSeconds (u32At bs 7)
  | 3 => word "END" :: (eventEnd bs).elim [word "OPEN"] (dateItems startSeconds)
  | 4 => [word "DURATION", (eventEnd bs).elim (word "OPEN") fun e => num (e - u32At bs 7), word "WINDOWS",
      num (u16At bs 15)]
  | 5 => [word "INTERRUPTION WINDOWS", num (u16At bs 17)]
  | 6 => [word "RELAPSES", num (byteAt bs 27)]
  | 7 => [word "MIN RES", plainCells (tenthsText m.v1), plainCells (tenthsText m.v2), plainCells (tenthsText m.v3)]
  | 8 => [word "WORST", if byteAt bs 25 = 0 then word "-" else plainCells (worstText bs), word "CHANNELS",
      plainCells (channelsText (channelsOf (byteAt bs 26)))]
  | 9 => [word "START CAPTURE", word (statusName (byteAt bs 28)), numOr (presentAt bs 1 (u16At bs 30))]
  | 10 => waveItems start
  | 11 => waveFlagItems start
  | 12 => [word "END CAPTURE", word (statusName (byteAt bs 29)), numOr (presentAt bs 2 (u16At bs 32))]
  | 13 => waveItems end_
  | 14 => waveFlagItems end_
  | 15 => [word "NOTICE SENT", word (if byteAt bs 34 = 1 then "YES" else "NO"), word "PINS", num (byteAt bs 35)]
  | _ =>
    let names := setNames (byteAt bs 36) eventFlagNames
    word "FLAGS" :: if names = [] then [word "NONE"] else names.map (redCells r true)

/-- The waveform a detail line reads. -/
def detailWave (n : Nat) (start end_ : Option Nat) : Option Nat :=
  if n = 10 ∨ n = 11 then start else if n = 13 ∨ n = 14 then end_ else none

/-- Lines read from the waveform descriptors (R143). -/
def isWaveLine (n : Nat) : Bool := n == 10 || n == 11 || n == 13 || n == 14

/-- Line n of an event detail. A missing event shows none of its lines; the lines of its waveforms are shown all the
same, from the descriptors as they stand (R140, R143, log 33). DESIGN CHOICE: lines 10, 11, 13 and 14, too, find a
missing EVENT record missing, so the first line of the detail composed after its loss counts it gone, whichever that is
(log 74, unsafe). -/
def composeDetail (n id : Nat) (start end_ : Option Nat) (s : State) : State × Option ReportLine :=
  let event := readBytes s id
  let items := detailItems s.composer.render s.composer.startSeconds (event.getD []) (readWave s start)
    (readWave s end_) n
  let shown := event.isSome || isWaveLine n
  (markMissing (id :: (detailWave n start end_).toList) s,
    if shown then plainLine (layItems (100 + n) items) else none)

/-! ### Notes (R144) -/

/-- The header line of a note (R144). -/
def noteHeaderCells (startSeconds : Nat) (bs : List Byte) : List LineCell :=
  let l := putCells 1 (inverted (byteAt bs 9 == 1) (plainCells (numberText 5 (u16At bs 1)))) blankLine
  let l := putText 7 (timeText startSeconds (u32At bs 3)) l
  let l := putText 20 (numberText 2 (byteAt bs 7)) l
  if u16At bs 10 = 0 then l else putText 23 ([0x45] ++ numberText 5 (u16At bs 10)) l

/-- The line of a note found missing: its number and GONE (R144). -/
def goneNote (number : Nat) : Option ReportLine :=
  plainLine (putText 7 (codesOf "GONE") (putText 1 (numberText 5 number) blankLine))

/-- A note's header line; its text lines follow (R144). -/
def composeNoteHeader (id number : Nat) (s : State) : State × Option ReportLine :=
  match readBytes s id with
  | none => (markGone id s, goneNote number)
  | some bs =>
    (if noteText bs = [] then s else pushJobs [.noteLine id number 0] s,
      plainLine (noteHeaderCells s.composer.startSeconds bs))

/-- Text line n of a note; one found missing by then gives its line of number and GONE, and no text line more
(R144). -/
def composeNoteLine (id number n : Nat) (s : State) : State × Option ReportLine :=
  match readBytes s id with
  | none => (markGone id s, goneNote number)
  | some bs =>
    (if n + 1 < textLines (noteText bs) then pushJobs [.noteLine id number (n + 1)] s else s,
      plainLine (putTextLine bs n blankLine))

/-- The CONTEXT record of the report's survey that carries a number (R144). -/
def findContext (s : State) (number : Nat) : Option Entry :=
  (recordsOf s .context s.composer.survey).find? fun e => byteAt (recordBytes s e) 1 == number

/-- A context as a context line shows it: its label, or its number after '#' when it is missing (R144). -/
def contextName (s : State) (number : Nat) : List Byte :=
  match findContext s number with
  | some e => contextLabel (recordBytes s e)
  | none => [0x23] ++ digits number

/-- The names of a path joined by '/'; NO CONTEXT for an empty path (R144). -/
def pathText (s : State) (path : List Nat) : List Byte :=
  if path = [] then codesOf "NO CONTEXT" else [0x2F].intercalate (path.map (contextName s))

/-- A note of a notes report: its context line first, when its path or date differs from the note shown before it
(R144). DESIGN CHOICE: on a context line that shows no date the labels begin at cell 1; the rule gives their cell, 12, for
a line with a date alone (log 78, unsafe). -/
def composeNoteEntry (id number : Nat) (s : State) : State × Option ReportLine :=
  match readBytes s id with
  | none => (markGone id s, goneNote number)
  | some bs =>
    let day := dayOf s (u32At bs 3)
    let newDay := s.composer.cursor.lastDay != some day
    if newDay || s.composer.cursor.lastPath != some (notePath bs) then
      let date := dateText (calendarSecond s.composer.startSeconds (u32At bs 3))
      let l := putText (if newDay then 12 else 1) (pathText s (notePath bs)) blankLine
      (pushJobs [.noteHeader id number]
          (modifyCursor (fun c => { c with lastDay := some day, lastPath := some (notePath bs) }) s),
        plainLine (if newDay then putText 1 date l else l))
    else composeNoteHeader id number s

/-! ### Site report (R144) -/

/-- Records of a kind of the report's survey. -/
def countOf (s : State) (k : RecordKind) : Nat := (recordsOf s k s.composer.survey).length

/-- Names of the header states by code (12.1). -/
def headerStateName (c : Nat) : String :=
  match c with
  | 0 => "RUNNING"
  | 1 => "ENDED"
  | 2 => "ENDED_BY_RESET"
  | _ => "-"

/-- Items of lines 1 to 9 of a site report, from the header's bytes (R144). -/
def siteHeaderItems (bs : List Byte) (n : Nat) : List (List LineCell) :=
  let g := settingsOf bs
  match n with
  | 1 => [word "SURVEY NUMBER", num (u16At bs 1), word "SURVEY ID", num (u16At bs 3)]
  | 2 => word "STARTED" :: dateItems (u32At bs 5) 0
  | 3 => [word "STATE", word (headerStateName (byteAt bs 9))]
  | 4 => [word "RESUMES", num (u16At bs 12)]
  | 5 => [word "FREQUENCY", num g.nominal, word "Hz", word "D", num g.declared]
  | 6 => [word "T", plainCells (tenthsText g.threshold), word "H", plainCells (tenthsText g.hysteresis), word "I",
      plainCells (tenthsText g.interruption)]
  | 7 => [word "S", num g.settle]
  | 8 => [word "CPRE", num g.preCycles, word "CPOST", num g.postCycles, word "CEND", num g.endCycles]
  | _ => [word "L", num g.minutes, word (if g.ring then "RING" else "FILL")]

/-- Items of lines 10 to 15 of a site report (R144). -/
def siteCountItems (s : State) (n : Nat) : List (List LineCell) :=
  match n with
  | 10 => [word "FREE BLOCKS", num s.store.freeCount]
  | 11 => [word "EVENTS", num (countOf s .event)]
  | 12 => [word "WAVEFORMS", num (countOf s .waveformStart + countOf s .waveformEnd)]
  | 13 => [word "COMPANIONS", num (countOf s .companion), word "INTERVALS", num (countOf s .interval)]
  | 14 => [word "NOTES", num (countOf s .note), word "CONTEXTS", num (countOf s .context)]
  | _ => [inverted true (word "CONTEXTS")]

/-- Line n of a site report; lines 1 to 9 of a missing header are not shown (R140, R144, log 33). -/
def composeSite (n id : Nat) (s : State) : State × Option ReportLine :=
  if n ≤ 9 then
    match readBytes s id with
    | none => (markGone id s, none)
    | some bs => (s, plainLine (layItems (200 + n) (siteHeaderItems bs n)))
  else (s, plainLine (layItems (200 + n) (siteCountItems s n)))

/-- A context's line of a site report, indented under its parent (R144). -/
def composeSiteContext (id : Nat) (s : State) : State × Option ReportLine :=
  match readBytes s id with
  | none => (markGone id s, none)
  | some bs =>
    (s, plainLine (putText (5 + 2 * byteAt bs 2) (contextLabel bs) (putText 1 (numberText 3 (byteAt bs 1)) blankLine)))

/-! ### Harmonic summary (R145) -/

/-- The intervals of the set that are present, as bytes, in record id order. -/
def readIntervals (s : State) : List (List Byte) := (setIds s).filterMap (readBytes s)

/-- FLAGGED and NO_DATA of an interval record (12.2). -/
def intervalFlagged (bs : List Byte) : Bool := bitAt bs 15 1
def intervalNoData (bs : List Byte) : Bool := bitAt bs 15 2

/-- An interval is used when it is neither FLAGGED nor NO_DATA (R145). -/
def intervalUsed (bs : List Byte) : Bool := !intervalFlagged bs && !intervalNoData bs

/-- The count pass: read, used, flagged, no data, gone (R145). -/
def countPass (s : State) : List Nat :=
  let l := readIntervals s
  [l.length, (l.filter intervalUsed).length, (l.filter intervalFlagged).length,
    (l.filter fun b => intervalNoData b && !intervalFlagged b).length, (setIds s).length - l.length]

/-- Count lines 1 and 2 of a harmonic summary (R145). -/
def composeCount (n : Nat) (s : State) : State × Option ReportLine :=
  if n = 1 then
    let c := countPass s
    let s := markMissing (setIds s) (modifyCursor (fun k => { k with counts := c }) s)
    (s, plainLine (layItems 301 [word "INTERVALS", num (c.getD 0 0), word "USED", num (c.getD 1 0)]))
  else
    let c := s.composer.cursor.counts
    let r := s.composer.render
    (s, plainLine (layItems 302 [word "FLAGGED", redCells r (decide (0 < c.getD 2 0)) (num (c.getD 2 0)),
      word "NO DATA", num (c.getD 3 0), word "GONE", redCells r (decide (0 < c.getD 4 0)) (num (c.getD 4 0))]))

/-- The first byte of a channel's region of an interval record (12.2). -/
def channelRegion (c : Channel) : Nat := 43 + 110 * (c.number - 1)

/-- The average and the maximum of an order in a channel's region (12.2). -/
def orderAverage (c : Channel) (h : Nat) (bs : List Byte) : Nat := u16At bs (channelRegion c + 10 + 4 * (h - 1))
def orderMaximum (c : Channel) (h : Nat) (bs : List Byte) : Nat := u16At bs (channelRegion c + 12 + 4 * (h - 1))

/-- Floor of the mean of some numbers; 0 when there is none (the manual prints '-' there). -/
def meanOf (l : List Nat) : Nat := total l / l.length

/-- The greatest of some numbers, 0 for none. -/
def maxOf (l : List Nat) : Nat := l.foldl max 0

/-- The figures of a channel (R145). With no interval read the highest values are 0, as for no interval with a cycle
(log 55). -/
def figuresOf (c : Channel) (read : List (List Byte)) : Figures :=
  let used := read.filter intervalUsed
  { used := used.length
    means := (List.range' 1 25).map fun h => meanOf (used.map (orderAverage c h))
    highest := (List.range' 1 25).map fun h => maxOf (read.map (orderMaximum c h))
    meanThd := meanOf (used.map fun b => u16At b (channelRegion c + 6))
    highestThd := maxOf (read.map fun b => u16At b (channelRegion c + 8)) }

/-- A mean or ratio as text, '-' when there is none (R145). DESIGN CHOICE: R145 gives the column of five cells and not
the cell of the '-', which stands right-aligned like the figure it replaces (log 72, unsafe). -/
def orDash (have_ : Bool) (t : List Byte) : List Byte := if have_ then t else [0x2D]

/-- A channel's heading line (R145). The '-' of a mean without a value stands in the last of its five cells
(log 72). -/
def channelHeadingCells (c : Channel) (f : Figures) : List LineCell :=
  let l := putText 1 [0x56, BitVec.ofNat 8 (48 + c.number)] blankLine
  let l := putText 9 (rightAligned 5 (orDash (f.used != 0) (digits (f.means.getD 0 0)))) (putText 4 (codesOf "FUND") l)
  let l := putText 19 (numberText 5 (f.highest.getD 0 0)) (putText 15 (codesOf "MAX") l)
  let l := putText 29 (rightAligned 5 (orDash (f.used != 0) (hundredthsText f.meanThd))) (putText 25 (codesOf "THD") l)
  putText 39 (rightAligned 5 (hundredthsText f.highestThd)) (putText 35 (codesOf "MAX") l)

/-- The heading line of a channel, for which the figures are formed (R145). -/
def composeChannel (c : Channel) (s : State) : State × Option ReportLine :=
  let f := figuresOf c (readIntervals s)
  (markMissing (setIds s) (modifyCursor (fun k => { k with figures := f }) s), plainLine (channelHeadingCells c f))

/-- The ratio of an order, none when no interval is used or the mean of order 1 is 0 (R145). -/
def ratioOf (f : Figures) (h : Nat) : Option Nat :=
  let first := f.means.getD 0 0
  if f.used = 0 ∨ first = 0 then none else some (min 9999 (10000 * f.means.getD (h - 1) 0 / first))

/-- The line of an order (R145). The '-' of a mean or ratio without a value stands in the last of its five cells
(log 72). -/
def orderCells (r : Render) (f : Figures) (h : Nat) : List LineCell :=
  let l := putSeparators r [3, 9, 15] blankLine
  let l := putText 1 (numberText 2 h) l
  let l := putText 4 (rightAligned 5 (orDash (f.used != 0) (digits (f.means.getD (h - 1) 0)))) l
  let l := putText 10 (numberText 5 (f.highest.getD (h - 1) 0)) l
  putText 16 (rightAligned 5 ((ratioOf f h).elim [0x2D] hundredthsText)) l

/-! ### One line job (R140, R142) -/

/-- A line job is composed; the job has left the cursor. A job that shows nothing gives no line. -/
def composeJob (j : LineJob) (s : State) : State × Option ReportLine :=
  let r := s.composer.render
  match j with
  | .heading n => (s, some (headingLine n s))
  | .listTitle => (s, plainLine listTitleCells)
  | .listRule => (s, plainLine (ruleLine r listSeparators))
  | .listEvent id notes => composeListEvent false id notes s
  | .listEventLine id notes => composeListEvent true id notes s
  | .listNote id n => composeListNote id n s
  | .detail n id a b => composeDetail n id a b s
  | .noteLine id number n => composeNoteLine id number n s
  | .noteEntry id number => composeNoteEntry id number s
  | .noteHeader id number => composeNoteHeader id number s
  | .site n id => composeSite n id s
  | .siteContext id => composeSiteContext id s
  | .count n => composeCount n s
  | .channelHeading c => composeChannel c s
  | .order _ h => (s, plainLine (orderCells r s.composer.cursor.figures h))
  | .closing => (s, some (closingLine s))

/-! ### Holds no longer needed (R140, R145) -/

/-- The records of the contexts of a path. -/
def pathRecords (s : State) (path : List Nat) : List Nat :=
  path.filterMap fun n => (findContext s n).map Entry.id

/-- The contexts that the context lines still to compose read: of each note whose path or date differs from that of the
note shown before it (R140, R144). The day and path are those of the note shown last. -/
def contextReads (s : State) : Option Nat → Option (List Nat) → List LineJob → List Nat
  | _, _, [] => []
  | day, path, .noteEntry id _ :: js =>
    match readBytes s id with
    | none => contextReads s day path js
    | some bs =>
      if day = some (dayOf s (u32At bs 3)) ∧ path = some (notePath bs) then contextReads s day path js
      else pathRecords s (notePath bs) ++ contextReads s (some (dayOf s (u32At bs 3))) (some (notePath bs)) js
  | day, path, _ :: js => contextReads s day path js

/-- The records a line job will read, the contexts of a context line apart. -/
def jobReads (s : State) : LineJob → List Nat
  | .listEvent id notes => id :: notes
  | .listEventLine id notes => id :: notes
  | .listNote id _ => [id]
  | .detail n id a b => id :: ((if n ≤ 11 then a.toList else []) ++ (if n ≤ 14 then b.toList else []))
  | .noteLine id _ _ => [id]
  | .noteEntry id _ => [id]
  | .noteHeader id _ => [id]
  | .site n id => if n ≤ 9 then [id] else []
  | .siteContext id => [id]
  | .count _ => setIds s
  | .channelHeading _ => setIds s
  | _ => []

/-- The holds of the records no line still to compose reads are cleared (R140). -/
def clearPassed (s : State) : State :=
  let c := s.composer.cursor
  let needed := c.jobs.flatMap (jobReads s) ++ contextReads s c.lastDay c.lastPath c.jobs
  let passed := (s.composer.set.filter fun x => !x.cleared && !needed.contains x.recId).map SetItem.recId
  let s := { s with composer := { s.composer with
    set := s.composer.set.map fun x => if passed.contains x.recId then { x with cleared := true } else x } }
  passed.foldl (fun s id => if (readSet s id).isSome then setHold id false s else s) s

end Sys2Proof.Machine
end

