-- ==== Sys2Proof/Machine/Composer.lean ====
section
/-! DEFINITION. The Report Composer (chapter 8): requests, acceptance and the set, the origin side of a job, the end of a
report. -/

namespace Sys2Proof.Machine

/-! ### The request (R131, R132) -/

/-- Report kind of a code (12.1). -/
def reportKindOf (c : Nat) : Option ReportKind :=
  match c with
  | 1 => some .site
  | 2 => some .eventList
  | 3 => some .eventDetail
  | 4 => some .harmonicSummary
  | 5 => some .notes
  | _ => none

/-- Colour use of a code (12.1). -/
def colourUseOf (c : Nat) : Option ColourUse :=
  match c with
  | 0 => some .asSet
  | 1 => some .off
  | 2 => some .on
  | _ => none

/-- Printer choice of a code: a station 0 to 7, or ANY (12.1). -/
def printerOf (c : Nat) : Option (Option Station) :=
  if c = 0xFF then some none else if h : c < 8 then some (some ⟨c, by omega⟩) else none

/-- The fields of a REPORT_REQUEST, or the index of the first field out of its values (R131 step 1). A from ms above the
to ms is answered with the index of the from ms, byte 7 (log 52). -/
def requestOf (bs : List Byte) : Except Nat ReportRequest :=
  match reportKindOf (byteAt bs 2) with
  | none => .error 2
  | some kind =>
    if kind = .eventDetail ∧ u16At bs 3 = 0 then .error 3
    else if u32At bs 11 < u32At bs 7 then .error 7
    else if 1 < byteAt bs 15 then .error 15
    else
      match colourUseOf (byteAt bs 16), printerOf (byteAt bs 17) with
      | none, _ => .error 16
      | some _, none => .error 17
      | some colour, some printer =>
        .ok { kind := kind, event := u16At bs 3, survey := u16At bs 5, fromMs := u32At bs 7, toMs := u32At bs 11,
              notes := byteAt bs 15 == 1, colour := colour, printer := printer }

/-- The header of the survey a request names; for 0, of the last survey started (R131 step 3). -/
def requestHeader (s : State) (survey : Nat) : Option Entry :=
  if survey = 0 then lastHeader s else (recordsOf s .header survey).getLast?

/-- A recorder station that can print: printer fitted and present, or this station strapped PRN (R132). -/
def hasPrinter (s : State) (st : Station) : Bool :=
  (peerEntry s st).present && (peerEntry s st).printer

/-- A station that can print and has paper (R132). -/
def hasPaper (s : State) (st : Station) : Bool :=
  hasPrinter s st && (peerEntry s st).paper

/-- The printer station chosen (R132). -/
def choosePrinter (s : State) (choice : Option Station) : Option Station :=
  match choice with
  | some st => if hasPrinter s st then some st else none
  | none => (allStations.filter fun st => decide (st.val < 8)).find? (hasPaper s)

/-! ### The set of records (R133) -/

/-- A record's time lies in the range of a request (R133). -/
def inRange (q : ReportRequest) (e : Entry) : Bool := decide (q.fromMs ≤ e.time) && decide (e.time ≤ q.toMs)

/-- The NOTE records of a survey attached to an event number, struck or not (R133). -/
def notesOfEvent (s : State) (survey number : Nat) : List Entry :=
  (recordsOf s .note survey).filter fun e => u16At (recordBytes s e) 10 == number

/-- The notes shown with an event (R133). -/
def shownNotes (s : State) (q : ReportRequest) (survey : Nat) (event : Entry) : List Nat :=
  if q.notes then (notesOfEvent s survey (u16At (recordBytes s event) 1)).map Entry.id else []

/-- The EVENT records of a list (R133). -/
def listedEvents (s : State) (q : ReportRequest) (survey : Nat) : List Entry :=
  (recordsOf s .event survey).filter (inRange q)

/-- The NOTE records of a notes report (R133). -/
def listedNotes (s : State) (q : ReportRequest) (survey : Nat) : List Entry :=
  (recordsOf s .note survey).filter (inRange q)

/-- The CONTEXT records named in some notes' paths (R133). -/
def namedContexts (s : State) (survey : Nat) (notes : List Entry) : List Entry :=
  let numbers := notes.flatMap fun e => notePath (recordBytes s e)
  (recordsOf s .context survey).filter fun e => numbers.contains (byteAt (recordBytes s e) 1)

/-- The own waveform of a kind of an event (R133). -/
def waveOf (s : State) (kind : RecordKind) (event : Entry) : Option Nat :=
  (s.store.dir.find? fun e => e.kind == kind && e.parent == some event.id).map Entry.id

/-- The lines of a report's body and the records of its set (R133, R142 to R145). -/
structure ReportPlan where
  body : List LineJob
  set : List Nat
  estimate : Nat
deriving DecidableEq, Repr

/-- A note of a notes report, as a line job. -/
def noteJob (s : State) (e : Entry) : LineJob := .noteEntry e.id (u16At (recordBytes s e) 1)

/-- A site report (R133, R134, R144). -/
def planSite (s : State) (survey : Nat) (header : Nat) : ReportPlan :=
  let contexts := (recordsOf s .context survey).map Entry.id
  { body := ((List.range' 1 15).map fun n => LineJob.site n header) ++ contexts.map LineJob.siteContext
    set := header :: contexts
    estimate := 4 + 15 + contexts.length }

/-- An event list (R133, R134, R143). -/
def planEventList (s : State) (q : ReportRequest) (survey : Nat) : ReportPlan :=
  let events := listedEvents s q survey
  let notes := fun e => shownNotes s q survey e
  { body := [.listTitle, .listRule] ++ events.map fun e => LineJob.listEvent e.id (notes e)
    set := events.flatMap fun e => e.id :: notes e
    estimate := 4 + 2 + events.length + 3 * (events.flatMap notes).length }

/-- An event detail (R133, R134, R143). -/
def planDetail (s : State) (q : ReportRequest) (survey : Nat) (event : Entry) : ReportPlan :=
  let a := waveOf s .waveformStart event
  let b := waveOf s .waveformEnd event
  let notes := shownNotes s q survey event
  { body := ((List.range' 1 16).map fun n => LineJob.detail n event.id a b)
      ++ notes.map fun id => LineJob.noteHeader id (((findEntry s id).elim 0 fun e => u16At (recordBytes s e) 1))
    set := event.id :: (a.toList ++ b.toList ++ notes)
    estimate := 4 + 16 + 4 * notes.length }

/-- The lines of one channel of a harmonic summary (R145). -/
def channelJobs (c : Channel) : List LineJob := .channelHeading c :: (List.range' 2 24).map (LineJob.order c)

/-- A harmonic summary (R133, R134, R145). -/
def planHarmonic (s : State) (q : ReportRequest) (survey : Nat) : ReportPlan :=
  { body := [.count 1, .count 2] ++ allChannels.flatMap channelJobs
    set := ((recordsOf s .interval survey).filter (inRange q)).map Entry.id
    estimate := 4 + 2 + 75 }

/-- A notes report (R133, R134, R144). -/
def planNotes (s : State) (q : ReportRequest) (survey : Nat) : ReportPlan :=
  let notes := listedNotes s q survey
  { body := notes.map (noteJob s)
    set := notes.map Entry.id ++ (namedContexts s survey notes).map Entry.id
    estimate := 4 + 4 * notes.length }

/-- The plan of a request on a survey; `event` is the EVENT record of an event detail (R133). -/
def planOf (s : State) (q : ReportRequest) (survey header : Nat) (event : Option Entry) : ReportPlan :=
  match q.kind with
  | .site => planSite s survey header
  | .eventList => planEventList s q survey
  | .eventDetail => event.elim { body := [], set := [], estimate := 0 } (planDetail s q survey)
  | .harmonicSummary => planHarmonic s q survey
  | .notes => planNotes s q survey

/-! ### Acceptance (R133, R134) -/

/-- The render settings fixed at acceptance (R134). -/
def renderOf (g : Settings) (c : ColourUse) : Render where
  bankA := g.bankA
  bankB := g.bankB
  cellWidth := g.cellWidth
  colour := match c with
    | .asSet => if g.colour then 1 else 0
    | .off => 0
    | .on => 1
  energy := g.energy

/-- The next job number, from 65535 to 1 (R134). -/
def nextJob (n : Nat) : Nat := if n = 65535 then 1 else n + 1

/-- The payload of the composer's JOB_OPEN (12.1). -/
def jobOpenPayload (c : Composer) (estimate : Nat) : List Byte :=
  u16 c.job ++ u8 c.request.kind.code ++ u8 c.render.bankA ++ u8 c.render.bankB ++ u8 c.render.cellWidth
    ++ u8 c.render.colour ++ u8 c.render.energy ++ u16 (min 65535 estimate)

/-- A request is accepted: the set is fixed and held, the job numbered, JOB_OPEN queued, and the opening timer started
(R133, R134). -/
def acceptReport (q : ReportRequest) (header : Entry) (event : Option Entry) (printer : Station) (s : State) : State :=
  let plan := planOf s q header.survey header.id event
  let hb := recordBytes s header
  let s := plan.set.foldl (fun s id => setHold id true s) s
  let c : Composer := { s.composer with
    state := .opening
    job := nextJob s.composer.job
    request := q
    survey := header.survey
    idLimit := (s.store.dir.getLast?).elim 0 Entry.id
    printer := printer
    render := renderOf s.survey.settings q.colour
    line := 0
    queuePosition := none
    paused := false
    gone := 0
    set := plan.set.map fun id => { recId := id, gone := false, cleared := false }
    cursor := { ReportCursor.empty with jobs := [.heading 1, .heading 2, .heading 3] ++ plan.body ++ [.closing] }
    surveyId := u16At hb 3
    startSeconds := u32At hb 5
    openingTimer := startTimer s 1000
    finishingTimer := none }
  send .jobOpen printer (jobOpenPayload c plan.estimate) { s with composer := c }

/-- REPORT_REQUEST after its length (R131). -/
def takeReportRequest (f : RxFrame) (s : State) : State :=
  match requestOf f.payload with
  | .error i => answer f .reportRequest (.refused .badField i) s
  | .ok q =>
    if s.composer.state ≠ .idle then answer f .reportRequest (.refused .busy 0) s
    else
      match requestHeader s q.survey with
      | none => answer f .reportRequest (.refused .noSurvey 0) s
      | some h =>
        let event := if q.kind = .eventDetail then findEvent s h.survey q.event else none
        if q.kind = .eventDetail ∧ event = none then answer f .reportRequest (.refused .noEvent 0) s
        else
          match choosePrinter s q.printer with
          | none => answer f .reportRequest (.refused .noPrinter 0) s
          | some p =>
            let s := acceptReport q h event p s
            answer f .reportRequest (.accepted s.composer.job 0) s

/-! ### The end of a report (R139) -/

/-- The composer's last outcomes beside those of PRINT_END (12.1). -/
def printerSilent : Nat := 7
def printerLostOutcome : Nat := 8
def unconfirmed : Nat := 9

/-- A PRINT_LINE of the report in progress: to its printer, under its job number (R136). -/
def isReportLine (s : State) (g : TxFrame) : Bool :=
  g.kind == .printLine && g.dest == some s.composer.printer && u16At g.payload 1 == s.composer.job

/-- The PRINT_LINE frames of the report that are not now in transmission leave the transmit queue; one whose attempt was
lost or aborted counts as not begun (R139 step 1, log 53). -/
def dropPrintLines (s : State) : State :=
  { s with link := { s.link with queue := s.link.queue.filter fun g => g.inTx || !isReportLine s g } }

/-- The holds still set are cleared (R139 step 2). -/
def clearHolds (s : State) : State :=
  (s.composer.set.filter fun x => !x.cleared).foldl
    (fun s x => if (readSet s x.recId).isSome then setHold x.recId false s else s) s

/-- The report ends with an outcome (R139). -/
def endReport (outcome : Nat) (s : State) : State :=
  let s := clearHolds (dropPrintLines s)
  { s with composer := { s.composer with
      state := .idle
      lastOutcome := outcome
      credit := 0
      set := []
      cursor := ReportCursor.empty
      openingTimer := none
      finishingTimer := none } }

/-- A JOB_CANCEL goes to the printer (R135, R137, R139). -/
def sendJobCancel (s : State) : State := send .jobCancel s.composer.printer (u16 s.composer.job) s

/-- REPORT_CANCEL after its length (R139). -/
def takeReportCancel (f : RxFrame) (s : State) : State :=
  if s.composer.state = .idle then answer f .reportCancel (.refused .notActive 0) s
  else
    answer f .reportCancel (.accepted 0 0) (endReport Outcome.cancelled.code (sendJobCancel s))

/-- The printer station was marked absent (R139). -/
def printerLost (st : Station) (s : State) : State :=
  if s.composer.state ≠ .idle ∧ s.composer.printer = st then endReport printerLostOutcome s else s

/-- The opening timer expires (R135). -/
def openingExpired (s : State) : State := endReport printerSilent (sendJobCancel s)

/-- The finishing timer expires (R137). -/
def finishingExpired (s : State) : State := endReport unconfirmed (sendJobCancel s)

/-! ### Lines within credit (R136) -/

/-- The bytes of a cell on the link (12.1). -/
def LineCell.bytes (c : LineCell) : List Byte := [c.code] ++ u8 c.attrByte

/-- The payload of a PRINT_LINE (12.1). -/
def printLinePayload (job number : Nat) (l : ReportLine) : List Byte :=
  let cells := trimLine l.cells
  u16 job ++ u16 number ++ u8 ((if l.last then 1 else 0) + (if l.double then 2 else 0)) ++ u8 cells.length
    ++ cells.flatMap LineCell.bytes

/-- The composer enters FINISHING; the timer runs unless the printer is paused (R137). -/
def enterFinishing (s : State) : State :=
  { s with composer := { s.composer with
      state := .finishing
      finishingTimer := if s.composer.paused then none else startTimer s 60000 } }

/-- A composed line is handed over: it takes the next line number and a credit (R136, log 31). -/
def sendLine (l : ReportLine) (s : State) : State :=
  let number := min 65535 (s.composer.line + 1)
  let s := send .printLine s.composer.printer (printLinePayload s.composer.job number l) s
  let s := { s with composer := { s.composer with line := number, credit := s.composer.credit - 1 } }
  if l.last then enterFinishing s else s

/-- The next line job is taken from the cursor and composed; holds no longer needed are cleared (R136, R140). -/
def composeNext (s : State) : State :=
  match s.composer.cursor.jobs with
  | [] => s
  | j :: rest =>
    let r := composeJob j (modifyCursor (fun c => { c with jobs := rest }) s)
    let s := clearPassed r.1
    match r.2 with
    | some l => sendLine l s
    | none => s

/-- Lines are composed one after another while credit lasts; with none left the composer waits (R136). The first
argument bounds the line jobs taken. -/
def composeLines : Nat → State → State
  | 0, s => s
  | n + 1, s =>
    if s.composer.state ≠ .sending then s
    else if s.composer.credit = 0 then { s with composer := { s.composer with state := .waitingCredit } }
    else composeLines n (composeNext s)

/-- More line jobs than any one credit can take: 16 lines, each followed by at most a line for every record of the set,
and the jobs now waiting (R136). -/
def jobBound (s : State) : Nat := s.composer.cursor.jobs.length + 17 * (s.composer.set.length + 20)

/-! ### Frames of the printer station (R135 to R138) -/

/-- A frame of the composer's printer station for the report in progress (8.3). -/
def forReport (f : RxFrame) (s : State) : Bool :=
  s.composer.state != .idle && f.sender == s.composer.printer && u16At f.payload 1 == s.composer.job

/-- JOB_QUEUED (R135). DESIGN CHOICE: the rule speaks of OPENING only; one for the report in progress that is taken in
any other state changes nothing, and no queue position is kept from it (log 56, unsafe). -/
def takeJobQueued (f : RxFrame) (s : State) : State :=
  if forReport f s && s.composer.state == .opening then
    { s with composer := { s.composer with
        state := .queued, queuePosition := some (byteAt f.payload 3), openingTimer := none } }
  else s

/-- The credit rises by a grant, to 16 at most (R136). -/
def addCredit (grant : Nat) (s : State) : State :=
  { s with composer := { s.composer with credit := min 16 (s.composer.credit + grant) } }

/-- PRINT_GO: credit, and lines while it lasts (R135, R136, R137). -/
def takePrintGo (f : RxFrame) (s : State) : State :=
  if !forReport f s then s
  else
    let s := addCredit (byteAt f.payload 3) s
    if s.composer.state = .finishing then enterFinishing s
    else
      composeLines (jobBound s) { s with composer := { s.composer with state := .sending, openingTimer := none } }

/-- PRINT_STATE: kept, and the finishing timer restarted (R137). -/
def takePrintState (f : RxFrame) (s : State) : State :=
  if !forReport f s || 1 < byteAt f.payload 3 then s
  else
    let s := { s with composer := { s.composer with paused := byteAt f.payload 3 == 0 } }
    if s.composer.state = .finishing then enterFinishing s else s

/-- PRINT_END: the report ends with its outcome; in OPENING only DUPLICATE ends it (R135, R138). -/
def takePrintEnd (f : RxFrame) (s : State) : State :=
  if forReport f s && (s.composer.state != .opening || byteAt f.payload 3 == Outcome.duplicate.code) then
    endReport (byteAt f.payload 3) s
  else s

end Sys2Proof.Machine
end

