-- ==== Sys2Proof/Machine/Loopback.lean ====
section
/-! DEFINITION. Loopback between the Report Composer and the Print Unit (10, R170), and the commands within which it can
run: the report requests, the frames and timers of print jobs, the head and paper events, and a station's presence. -/

namespace Sys2Proof.Machine

/-! ### Delivery (R170) -/

/-- A frame handed over for this station's own number, as its block takes it (R170). -/
def loopFrame (own : Station) (g : TxFrame) : RxFrame :=
  { sender := own, broadcast := false, dest := own, payload := g.payload }

/-- A loopback frame goes to the block that takes its kind (R170). Only the frames of print jobs are ever addressed to
the station itself; an answer to itself is taken by no block. -/
def deliverLoop (g : TxFrame) (s : State) : State :=
  let f := loopFrame (ownStation s) g
  match g.kind with
  | .jobOpen => toPrintUnit f (takeJobOpen f) s
  | .jobQueued => takeJobQueued f s
  | .printGo => takePrintGo f s
  | .printLine => toPrintUnit f (takePrintLine f) s
  | .printState => takePrintState f s
  | .printEnd => takePrintEnd f s
  | .jobCancel => toPrintUnit f (takeJobCancel f) s
  | _ => s

/-- The loopback frames are delivered in the order in which they were handed over; the first argument bounds their
number (R170, log 10). -/
def drainLoopback : Nat → State → State
  | 0, s => s
  | n + 1, s =>
    match s.link.loopback with
    | [] => s
    | g :: gs => drainLoopback n (deliverLoop g { s with link := { s.link with loopback := gs } })

/-- Loopback frames one command can give rise to: JOB_OPEN, JOB_QUEUED, two PRINT_GO, 32 lines and their answers. -/
def loopbackBound : Nat := 96

/-- What a block does, with the loopback frames it gives rise to delivered within the same step (R170). Each is
delivered at once, so none waits when a step begins (log 10). -/
def withLoopback (f : State → State) (s : State) : State :=
  drainLoopback loopbackBound (f { s with link := { s.link with loopback := [] } })

/-! ### Report requests (R131, R139) -/

/-- REPORT_REQUEST: 17 bytes (R131). -/
def execReportRequest (f : RxFrame) (s : State) : Host.Outcome State Fault Refusal :=
  receive f (withLoopback (request .reportRequest 17 f (takeReportRequest f))) s

/-- REPORT_CANCEL: 1 byte (R139). -/
def execReportCancel (f : RxFrame) (s : State) : Host.Outcome State Fault Refusal :=
  receive f (withLoopback (request .reportCancel 1 f (takeReportCancel f))) s

/-! ### Frames taken by the composer (R135 to R138) -/

/-- JOB_QUEUED: 3 bytes (R135). -/
def execJobQueued (f : RxFrame) (s : State) : Host.Outcome State Fault Refusal :=
  receive f (takeFixed 3 f (takeJobQueued f)) s

/-- PRINT_GO: 3 bytes (R136). -/
def execPrintGo (f : RxFrame) (s : State) : Host.Outcome State Fault Refusal :=
  receive f (withLoopback (takeFixed 3 f (takePrintGo f))) s

/-- PRINT_STATE: 3 bytes (R137). -/
def execPrintState (f : RxFrame) (s : State) : Host.Outcome State Fault Refusal :=
  receive f (takeFixed 3 f (takePrintState f)) s

/-- PRINT_END: 3 bytes (R138). -/
def execPrintEnd (f : RxFrame) (s : State) : Host.Outcome State Fault Refusal :=
  receive f (takeFixed 3 f (takePrintEnd f)) s

/-- OPENING_TIMER_EXPIRY (R135). -/
def execOpeningTimerExpiry (s : State) : Host.Outcome State Fault Refusal :=
  whileRunning (fun s => onExpiry s.composer.openingTimer (withLoopback openingExpired) s) s

/-- FINISHING_TIMER_EXPIRY (R137). -/
def execFinishingTimerExpiry (s : State) : Host.Outcome State Fault Refusal :=
  whileRunning (fun s => onExpiry s.composer.finishingTimer (withLoopback finishingExpired) s) s

/-! ### Frames taken by the Print Unit (R147, R148, R150, R154); a length is judged where the block takes the frame
(R187) -/

/-- JOB_OPEN: 10 bytes (R148). -/
def execJobOpen (f : RxFrame) (s : State) : Host.Outcome State Fault Refusal :=
  receive f (withLoopback (toPrintUnit f (takeFixed 10 f (takeJobOpen f)))) s

/-- PRINT_LINE: 6 bytes and 2 per cell (R150). -/
def execPrintLine (f : RxFrame) (s : State) : Host.Outcome State Fault Refusal :=
  receive f (withLoopback (toPrintUnit f (takeLength (printLineLength f.payload) (takePrintLine f)))) s

/-- JOB_CANCEL: 2 bytes (R154). -/
def execJobCancel (f : RxFrame) (s : State) : Host.Outcome State Fault Refusal :=
  receive f (withLoopback (toPrintUnit f (takeFixed 2 f (takeJobCancel f)))) s

/-- LINE_TIMER_EXPIRY (R155). -/
def execLineTimerExpiry (s : State) : Host.Outcome State Fault Refusal :=
  whileRunning (fun s => onExpiry s.printer.lineTimer (withLoopback lineTimedOut) s) s

/-! ### Head and paper (R153, R158, R159, R163) -/

/-- A row of a line is being made. -/
def makesLineRow (s : State) : Bool := s.printer.row.any fun r => !r.feed

/-- A feed row is being made. -/
def makesFeedRow (s : State) : Bool := s.printer.row.any DotRow.feed

/-- HEAD_ROW_DONE (R153, log 34). -/
def execHeadRowDone (s : State) : Host.Outcome State Fault Refusal :=
  whileRunning (fun s => if makesLineRow s then withLoopback lineRowDone s else s) s

/-- FEED_ROW_DONE (R163, log 34). -/
def execFeedRowDone (s : State) : Host.Outcome State Fault Refusal :=
  whileRunning (fun s => if makesFeedRow s then withLoopback feedRowDone s else s) s

/-- PAPER_OUT (R158): the sensor's level, and the loss of readiness. -/
def execPaperOut (s : State) : Host.Outcome State Fault Refusal :=
  let s := { s with pins := { s.pins with paper := false } }
  .next (if s.powered then withLoopback loseReady s else s)

/-- SETTLE_TIMER_EXPIRY (R159). -/
def execSettleTimerExpiry (s : State) : Host.Outcome State Fault Refusal :=
  whileRunning (fun s => onExpiry s.printer.settleTimer (withLoopback settled) s) s

/-! ### Presence of a station (R173) -/

/-- A PRESENCE is taken: the station is present and its items are recorded; the same-survey relation is followed, and a
peer that becomes present makes an OFFERS due (R116, R117, R173). -/
def takePresence (f : RxFrame) (s : State) : State :=
  let st := f.sender
  let bs := f.payload
  let before := sameSurvey s st
  let wasPresent := (peer s st).present
  let s := modifyPeer st (fun p => { p with
    present := true
    running := byteAt bs 1 == 1
    surveyId := u16At bs 2
    revision := u16At bs 6
    printer := bitAt bs 8 0
    paper := bitAt bs 8 1 }) s
  let s := surveyMoved before st s
  if !wasPresent && isPeer s st then offersDue s else s

/-- PRESENCE: 10 bytes (R173). -/
def execPresence (f : RxFrame) (s : State) : Host.Outcome State Fault Refusal :=
  receive f (takeFixed 10 f (takePresence f)) s

/-- The time without a frame after which a station is absent, in ms (R173). -/
def absenceMs : Nat := 3500

/-- A station becomes absent: its PRESENCE items and its list copy are cleared, it leaves the survey, the print job from
it ends, and a report at its printer ends (R117, R139, R156, R173). -/
def becomeAbsent (st : Station) (s : State) : State :=
  let before := sameSurvey s st
  let s := modifyPeer st (fun p => { p with
    present := false, running := false, surveyId := 0, revision := 0, printer := false, paper := false
    copy := none, spent := false }) s
  printerLost st (originLost st (surveyMoved before st s))

/-- PEER_ABSENT: nothing has been heard from a present station for 3500 ms (R173). -/
def execPeerAbsent (st : Station) (s : State) : Host.Outcome State Fault Refusal :=
  whileRunning (fun s =>
    if st == ownStation s || !(peer s st).present then s
    else
      withLoopback (becomeAbsent st) { s with now := max s.now ((peer s st).lastHeard + msTicks absenceMs) }) s

end Sys2Proof.Machine
end

