-- ==== Sys2Proof/Machine/Notes.lean ====
section
/-! DEFINITION. The Note Unit (chapter 6): contexts, notes, striking. -/

namespace Sys2Proof.Machine

/-! ### Text (R103) -/

/-- A byte within 0x20 to 0x7E. -/
def isTextByte (b : Byte) : Bool := decide (0x20 ≤ b.toNat) && decide (b.toNat ≤ 0x7E)

/-- The text as held: bytes outside the set replaced by '?', then cut (R103). -/
def heldText (limit : Nat) (bs : List Byte) : List Byte := (bs.map fun b => if isTextByte b then b else 0x3F).take limit

/-- The first byte replaced or beyond the cut, counted from 0 within the text (R103). -/
def textFault (limit : Nat) (bs : List Byte) : Option Nat :=
  firstIndex (fun x => !isTextByte x.1 || decide (limit ≤ x.2)) bs.zipIdx

/-- ACCEPTED, or CLAMPED with the index of the text fault; the text begins at payload byte `start` (R103). -/
def textReply (limit start : Nat) (bs : List Byte) (result recId : Nat) : Reply :=
  match textFault limit bs with
  | none => .accepted result recId
  | some i => .clamped (start + i) result recId

/-- Payload bytes a request with a text needs: `fixed` of them, the last holding the text length, and the text
(12.1). -/
def textNeed (fixed : Nat) (bs : List Byte) : Nat := if bs.length < fixed then fixed else fixed + byteAt bs fixed

/-! ### Contexts (R104, R105) -/

/-- The first check of R104 that fails, before the allocation. -/
def contextRefusal (s : State) : Option Reason :=
  if !s.survey.running then some .notRunning
  else if s.supply.state = .safe then some .safe
  else if 6 ≤ s.notes.stack.length then some .stackFull
  else if 255 ≤ s.notes.contexts then some .countFull
  else none

/-- The label of a CONTEXT_OPEN as sent. -/
def labelOf (f : RxFrame) : List Byte := bytesFrom f.payload 3 (byteAt f.payload 2)

/-- A granted context is written and pushed (R104). -/
def makeContext (f : RxFrame) (recId : Nat) (s : State) : State :=
  let n := s.notes.contexts + 1
  let s := writeRecord recId (contextBytes n s.notes.stack f.sender (surveyMs s) (heldText 24 (labelOf f))) s
  let s := { s with notes := { s.notes with contexts := n, stack := s.notes.stack ++ [n] } }
  answer f .contextOpen (textReply 24 3 (labelOf f) n recId) s

/-- CONTEXT_OPEN after its length (R104). -/
def takeContextOpen (f : RxFrame) (s : State) : State :=
  match contextRefusal s with
  | some r => answer f .contextOpen (.refused r 0) s
  | none =>
    match allocate .oneBlock 1 (newEntry .context s.survey.number false (surveyMs s)) s with
    | (s, .made recId _) => makeContext f recId s
    | (s, _) => answer f .contextOpen (.refused .storeFull 0) s

/-- CONTEXT_OPEN: 2 bytes and the label (R104). -/
def execContextOpen (f : RxFrame) (s : State) : Host.Outcome State Fault Refusal :=
  receive f (request .contextOpen (textNeed 2 f.payload) f (takeContextOpen f)) s

/-- CONTEXT_CLOSE after its length (R105). -/
def takeContextClose (f : RxFrame) (s : State) : State :=
  if s.notes.stack = [] then answer f .contextClose (.refused .stackEmpty 0) s
  else
    answer f .contextClose (.accepted 0 0)
      { s with notes := { s.notes with stack := s.notes.stack.dropLast } }

/-- CONTEXT_CLOSE: 1 byte (R105). -/
def execContextClose (f : RxFrame) (s : State) : Host.Outcome State Fault Refusal :=
  receive f (request .contextClose 1 f (takeContextClose f)) s

/-! ### Notes (R106 to R109) -/

/-- The attach choice of a NOTE_ADD (R106). -/
inductive Attach where
  | nothing | latest
  | event (n : Nat)
deriving DecidableEq, Repr

/-- The attach choice of a payload; none when it is no choice or names event 0 (R106, 12.1). An
event number sent with another choice than EVENT is not looked at (log 50). -/
def attachOf (bs : List Byte) : Except Nat Attach :=
  if byteAt bs 2 = 0 then .ok .nothing
  else if byteAt bs 2 = 1 then .ok .latest
  else if byteAt bs 2 = 2 then (if u16At bs 3 = 0 then .error 3 else .ok (.event (u16At bs 3)))
  else .error 2

/-- The fields of a NOTE_ADD: the attach choice, or the index of the first field out of its values (R106 step 3). -/
def noteFields (bs : List Byte) : Except Nat Attach :=
  match attachOf bs with
  | .error i => .error i
  | .ok a => if byteAt bs 5 = 0 then .error 5 else .ok a

/-- The event a choice resolves to, with its record (R108). -/
def resolveEvent (s : State) : Attach → Option LatestEvent
  | .nothing => none
  | .latest => s.detector.latest
  | .event n => (findEvent s s.survey.number n).map fun e => { number := n, recId := e.id }

/-- The text of a NOTE_ADD as sent. -/
def noteTextOf (f : RxFrame) : List Byte := bytesFrom f.payload 6 (byteAt f.payload 5)

/-- A granted note is written (R107). -/
def makeNote (f : RxFrame) (attached : Option Nat) (recId : Nat) (s : State) : State :=
  let n := s.notes.nextNote
  let s := writeRecord recId
    (noteBytes n (surveyMs s) f.sender s.notes.stack attached (heldText 108 (noteTextOf f))) s
  let s := { s with notes := { s.notes with nextNote := n + 1 } }
  answer f .noteAdd (textReply 108 6 (noteTextOf f) n recId) s

/-- The note's block is asked for; a pin raised before is lowered again when the store is full (R106 step 6, R109). -/
def placeNote (f : RxFrame) (event : Option LatestEvent) (s : State) : State :=
  match allocate .oneBlock 1 (newEntry .note s.survey.number false (surveyMs s)) s with
  | (s, .made recId _) => makeNote f (event.map LatestEvent.number) recId s
  | (s, _) =>
    let s := match event with
      | some e => lowerPin e.recId s
      | none => s
    answer f .noteAdd (.refused .storeFull 0) s

/-- The event is resolved and its pin count raised (R106 steps 4 and 5, R108, R109), and the note is then placed by
`place`. -/
def attachNote (place : Option LatestEvent → State → State) (f : RxFrame) (a : Attach) (s : State) : State :=
  if a = .nothing then place none s
  else
    match resolveEvent s a with
    | none => answer f .noteAdd (.refused .noEvent 0) s
    | some e =>
      match raisePin e.recId s with
      | .error r => answer f .noteAdd (.refused r 0) s
      | .ok s => place (some e) s

/-- NOTE_ADD after its length, up to the raise of the pin count (R106 steps 1 to 5); the note is then placed by
`place`. -/
def judgeNoteAdd (place : Option LatestEvent → State → State) (f : RxFrame) (s : State) : State :=
  if !s.survey.running then answer f .noteAdd (.refused .notRunning 0) s
  else if s.supply.state = .safe then answer f .noteAdd (.refused .safe 0) s
  else
    match noteFields f.payload with
    | .error i => answer f .noteAdd (.refused .badField i) s
    | .ok a => attachNote place f a s

/-- NOTE_ADD after its length (R106). -/
def takeNoteAdd (f : RxFrame) (s : State) : State := judgeNoteAdd (placeNote f) f s

/-- A NOTE_ADD that a stop cuts off once the pin count is raised: no note record is written (R109). -/
def cutNoteAdd (f : RxFrame) (s : State) : State := judgeNoteAdd (fun _ s => s) f s

/-- NOTE_ADD: 5 bytes and the text (R106). -/
def execNoteAdd (f : RxFrame) (s : State) : Host.Outcome State Fault Refusal :=
  receive f (request .noteAdd (textNeed 5 f.payload) f (takeNoteAdd f)) s

/-! ### Striking (R110) -/

/-- The survey whose notes can be struck: the running survey, or the last survey started (R110). -/
def strikeSurvey (s : State) : Option Nat :=
  if s.survey.running then some s.survey.number else (lastHeader s).map Entry.survey

/-- The NOTE record of a survey that carries a number. -/
def findNote (s : State) (survey number : Nat) : Option Entry :=
  (recordsOf s .note survey).find? fun e => u16At (recordBytes s e) 1 == number

/-- A note's struck flag is set (R110). -/
def markStruck (e : Entry) (s : State) : State := rewriteField e.id 9 [1] s

/-- A note is struck and then its event's pin lowered (R110). -/
def strikeNote (e : Entry) (s : State) : State :=
  let attached := u16At (recordBytes s e) 10
  let s := markStruck e s
  if attached = 0 then s
  else
    match findEvent s e.survey attached with
    | some ev => lowerPin ev.id s
    | none => s

/-- NOTE_STRIKE after its length (R110): a note not yet struck is struck by `strike`. -/
def judgeNoteStrike (strike : Entry → State → State) (f : RxFrame) (s : State) : State :=
  let n := u16At f.payload 2
  if n = 0 then answer f .noteStrike (.refused .badField 2) s
  else
    match (strikeSurvey s).bind fun v => findNote s v n with
    | none => answer f .noteStrike (.refused .noNote 0) s
    | some e =>
      if byteAt (recordBytes s e) 9 = 0 then strike e s else answer f .noteStrike (.accepted 0 0) s

/-- NOTE_STRIKE after its length (R110). -/
def takeNoteStrike (f : RxFrame) (s : State) : State :=
  judgeNoteStrike (fun e s => answer f .noteStrike (.accepted 0 0) (strikeNote e s)) f s

/-- A NOTE_STRIKE that a stop cuts off once the note reads struck: the pin count is not lowered, and the marker is
left WRITING (R98, R110). -/
def cutNoteStrike (f : RxFrame) (s : State) : State :=
  judgeNoteStrike (fun e s => setMarker true (markStruck e s)) f s

/-- NOTE_STRIKE: 3 bytes (R110). -/
def execNoteStrike (f : RxFrame) (s : State) : Host.Outcome State Fault Refusal :=
  receive f (request .noteStrike 3 f (takeNoteStrike f)) s

end Sys2Proof.Machine
end

