-- ==== Sys2Proof/Machine/Reading.lean ====
section
/-! DEFINITION. Reading and discarding records (chapter 5, R93 to R96): FETCH_SETUP, FETCH, DISCARD. -/

namespace Sys2Proof.Machine

/-! ### Parts of a record (R93) -/

/-- Bytes a written cycle takes in a channel part (R93). -/
def fetchCycleBytes (decimation : Nat) : Nat := if decimation = 1 then 128 else 64

/-- The blocks of a captured channel's region (R45). -/
def regionChain (d : Descriptor) (chain : List Nat) (i : Nat) : List Nat :=
  (chain.drop (i * regionBlocks d.decimation d.total)).take (regionBlocks d.decimation d.total)

/-- A channel part of a waveform record: its written cycles (R93). -/
def wavePart (s : State) (e : Entry) (d : Descriptor) (ch : Channel) : List Byte :=
  match firstIndex (fun c => c == ch) (channelList d.channels) with
  | none => []
  | some i => (Memory.readChain s.store.mem (regionChain d e.chain i)).take (d.written * fetchCycleBytes d.decimation)

/-- A part of a record as it stands (R93, 12.2). -/
def partBytes (s : State) (e : Entry) (p : Part) : List Byte :=
  if e.kind.isWave then
    match e.desc, p with
    | none, _ => []
    | some d, .header => d.bytes
    | some d, .channel c => wavePart s e d c
  else if e.kind = .interval then
    match p with
    | .header => bytesFrom (recordBytes s e) 1 42
    | .channel c => bytesFrom (recordBytes s e) (43 + 110 * (c.number - 1)) 110
  else
    match p with
    | .header => recordBytes s e
    | .channel _ => []

/-! ### Cursors (R94, R95) -/

/-- The parts a mask selects, in order: bit 0 header, bits 1 to 3 the channels (12.1). -/
def partsOfMask (mask : Nat) : List Part :=
  (if mask.testBit 0 then [Part.header] else [])
    ++ (allChannels.filter fun c => mask.testBit c.number).map Part.channel

/-- The selected parts with their lengths as they stand (R94). -/
def measuredParts (s : State) (e : Entry) (mask : Nat) : List (Part × Nat) :=
  (partsOfMask mask).map fun p => (p, (partBytes s e p).length)

/-- The total length of a cursor's parts (R94). -/
def partsTotal (l : List (Part × Nat)) : Nat := total (l.map Prod.snd)

/-- A station's cursor. -/
def findCursor (s : State) (st : Station) : Option Cursor := s.store.cursors.find? fun c => c.station == st

/-- The cursor with the oldest last use. -/
def oldestCursor : List Cursor → Option Cursor
  | [] => none
  | c :: cs =>
    match oldestCursor cs with
    | none => some c
    | some d => if d.lastUse < c.lastUse then some d else some c

/-- The cursors a new one joins: the station's own is replaced, and with four in use by others the oldest is lost
(R94). -/
def roomForCursor (st : Station) (l : List Cursor) : List Cursor :=
  let others := l.filter fun c => c.station != st
  if others.length < 4 then others
  else
    match oldestCursor others with
    | none => others
    | some o => others.filter fun c => c.station != o.station

/-- A cursor is stored with a new last-use stamp (R94). -/
def putCursor (c : Cursor) (s : State) : State :=
  { s with store := { s.store with
      cursors := roomForCursor c.station s.store.cursors ++ [{ c with lastUse := s.store.useStamp + 1 }]
      useStamp := s.store.useStamp + 1 } }

/-- FETCH_SETUP after its length (R94). -/
def takeFetchSetup (f : RxFrame) (s : State) : State :=
  let bs := f.payload
  if partsOfMask (byteAt bs 4) = [] then answer f .fetchSetup (.refused .badField 4) s
  else
    match findEntry s (u16At bs 2) with
    | none => answer f .fetchSetup (.refused .noRecord 0) s
    | some e =>
      let parts := measuredParts s e (byteAt bs 4)
      let offset := u32At bs 5
      let s := putCursor {
        station := f.sender, recId := e.id, gone := false, parts := parts
        position := min offset (partsTotal parts), lastUse := 0 } s
      answer f .fetchSetup (if partsTotal parts < offset then .clamped 5 0 0 else .accepted 0 0) s

/-- FETCH_SETUP: 8 bytes (R94). -/
def execFetchSetup (f : RxFrame) (s : State) : Host.Outcome State Fault Refusal :=
  receive f (request .fetchSetup 8 f (takeFetchSetup f)) s

/-- The selected parts laid end to end, each in its length at the setup, with the bytes they now hold (R95). -/
def cursorBytes (s : State) (e : Entry) (c : Cursor) : List Byte :=
  c.parts.flatMap fun x => padTo x.2 ((partBytes s e x.1).take x.2)

/-- The bytes a fetch returns: from the position on, at most 96 (R95). -/
def fetchBytes (s : State) (e : Entry) (c : Cursor) : List Byte := ((cursorBytes s e c).drop c.position).take 96

/-- The record a cursor still reads; none when it is GONE (R95). -/
def cursorRecord (s : State) (c : Cursor) : Option Entry := if c.gone then none else findEntry s c.recId

/-- FETCH after its length (R95). -/
def takeFetch (f : RxFrame) (s : State) : State :=
  match findCursor s f.sender with
  | none => answer f .fetch (.refused .noSetup 0) s
  | some c =>
    match cursorRecord s c with
    | none => answer f .fetch (.refused .gone 0) s
    | some e =>
      let bytes := fetchBytes s e c
      let position := c.position + bytes.length
      let s := putCursor { c with position := position } s
      send .fetchData f.sender
        ([f.payload.headD 0] ++ flag8 (decide (partsTotal c.parts ≤ position)) ++ bytes) s

/-- FETCH: 1 byte (R95). -/
def execFetch (f : RxFrame) (s : State) : Host.Outcome State Fault Refusal :=
  receive f (request .fetch 1 f (takeFetch f)) s

/-! ### DISCARD (R96) -/

/-- The first check of R96 that fails. -/
def discardRefusal (s : State) (e : Option Entry) : Option Reason :=
  match e with
  | none => some .noRecord
  | some e =>
    if !(e.kind.isWave || e.kind == .interval) then some .wrongKind
    else if e.open_ then some .open_
    else if e.hold then some .held
    else if parentPins s e ≠ 0 then some .pinned
    else if s.supply.state = .safe then some .safe
    else none

/-- DISCARD after its length (R96): a record that may go is discarded by `discard`. -/
def judgeDiscard (discard : Entry → State → State) (f : RxFrame) (s : State) : State :=
  let e := findEntry s (u16At f.payload 2)
  match discardRefusal s e with
  | some r => answer f .discard (.refused r 0) s
  | none =>
    match e with
    | none => s
    | some e => discard e s

/-- A record is discarded: released whole, its parent event brought into line (R96). -/
def discardRecord (e : Entry) (s : State) : State := parentShed e (releaseRecord e.id s)

/-- DISCARD after its length (R96). -/
def takeDiscard (f : RxFrame) (s : State) : State :=
  judgeDiscard (fun e s => answer f .discard (.accepted 0 0) (discardRecord e s)) f s

/-- A DISCARD that a stop cuts off before its change is complete: the marker is left WRITING (R98). -/
def cutDiscard (f : RxFrame) (s : State) : State := judgeDiscard (fun e s => setMarker true (discardRecord e s)) f s

/-- DISCARD: 3 bytes (R96). -/
def execDiscard (f : RxFrame) (s : State) : Host.Outcome State Fault Refusal :=
  receive f (request .discard 3 f (takeDiscard f)) s

end Sys2Proof.Machine
end

