-- ==== Sys2Proof/Machine/Detector.lean ====
section
/-! DEFINITION. The Sag Detector (chapter 2): one polyphase state machine over window results, event records, trigger
notices. -/

namespace Sys2Proof.Machine

/-! ### Tests on a window -/

/-- Some channel is below T (R22, R33). -/
def belowThreshold (g : Settings) (w : WindowResult) : Bool := w.residual.any fun r => decide (r < g.threshold)

/-- Every channel is at T + H or above (R30). -/
def isRecovered (g : Settings) (w : WindowResult) : Bool :=
  w.residual.all fun r => decide (g.threshold + g.hysteresis ≤ r)

/-- Every channel is below I (R28). -/
def isInterrupted (g : Settings) (w : WindowResult) : Bool := w.residual.all fun r => decide (r < g.interruption)

/-- The channels below T (R24, R27). -/
def channelsBelow (g : Settings) (w : WindowResult) : ChannelSet := w.residual.map fun r => decide (r < g.threshold)

/-- The lowest residual of a window (R26). -/
def worstResidual (w : WindowResult) : Nat := min w.residual.v1 (min w.residual.v2 w.residual.v3)

/-- The mark of a window that is not an event window (R21). -/
def EventMark.quiet : EventMark := { eventWindow := false, number := none, opened := false }

/-! ### The working copy -/

/-- A recorded event's working copy is changed; nothing else is kept of an unrecorded event (R27). -/
def OpenEvent.modify (f : EventWork → EventWork) : OpenEvent → OpenEvent
  | .recorded w => .recorded (f w)
  | o => o

/-- The event in progress is changed. -/
def modifyEvent (f : EventWork → EventWork) (s : State) : State :=
  { s with detector := { s.detector with event := s.detector.event.modify f } }

/-- The number carried by an event window's mark (R21). -/
def OpenEvent.number : OpenEvent → Option Nat
  | .recorded w => some w.number
  | _ => Option.none

/-- The mark of an event window (R21). -/
def eventMark (o : OpenEvent) (opened : Bool) : EventMark :=
  { eventWindow := true, number := o.number, opened := opened }

/-- OVERRANGE_SEEN is set by a window that carries overrange seen (R27). -/
def EventWork.seeOverrange (w : WindowResult) (e : EventWork) : EventWork :=
  { e with flags := { e.flags with overrangeSeen := e.flags.overrangeSeen || w.overrange } }

/-- The duration rises (R27, R33). -/
def EventWork.lengthen (n : Nat) (e : EventWork) : EventWork := { e with duration := raise16 e.duration n }

/-- The minima take a window's residuals (R27). -/
def EventWork.lower (w : WindowResult) (e : EventWork) : EventWork :=
  { e with minRes := Tri.zip min e.minRes w.residual }

/-- The minima, the channels involved and the interruption count take a valid window (R27, R28). -/
def EventWork.deepen (g : Settings) (w : WindowResult) (e : EventWork) : EventWork :=
  let e := { e.lower w with involved := Tri.zip (· || ·) e.involved (channelsBelow g w) }
  if isInterrupted g w then
    { e with interruptionWindows := raise16 e.interruptionWindows 1, interruption := true }
  else e

/-- An event's working copy as it opens (R24), before the start capture answers. -/
def EventWork.opening (g : Settings) (w : WindowResult) (recId number survey : Nat) (resumed : Bool) : EventWork where
  recId := recId
  number := number
  survey := survey
  interruption := isInterrupted g w
  startMs := w.endMs
  endMs := none
  duration := 1
  interruptionWindows := if isInterrupted g w then 1 else 0
  minRes := w.residual
  involved := channelsBelow g w
  relapses := 0
  startStatus := .none
  endStatus := .none
  startId := none
  endId := none
  notice := false
  flags := { cutShort := false, surveyEnd := false, invalidSeen := false, followsResume := resumed,
             overrangeSeen := w.overrange }

/-! ### Opening (R22 to R26) -/

/-- The payload of a trigger notice, age 0 until it is stamped (R26, 12.1). -/
def noticePayload (surveyId number : Nat) (g : Settings) (w : WindowResult) : List Byte :=
  u16 surveyId ++ u16 number ++ u8 0 ++ u16 (worstResidual w) ++ u8 (channelByte (channelsBelow g w))

/-- The trigger notice is offered to the transmit queue, unless LINK_SILENT is set; the answer is whether the queue
took it (R26). -/
def queueNotice (number : Nat) (w : WindowResult) (s : State) : State × Bool :=
  if s.link.silent then (s, false)
  else
    let f : TxFrame := { newFrame .triggerNotice none (noticePayload s.survey.id number s.survey.settings w) with
      openingWindow := some w.number }
    let r := s.link.handOver f
    ({ s with link := r.1 }, r.2)

/-- The opening of a recorded event, once its block is granted (R25). -/
def openRecorded (w : WindowResult) (resumed : Bool) (recId : Nat) (s : State) : State :=
  let number := s.detector.nextEvent
  let s := { s with detector := { s.detector with nextEvent := number + 1 } }
  let e := EventWork.opening s.survey.settings w recId number s.survey.number resumed
  let r := startCapture w.cycle { number := number, recId := recId } s
  let e := { e with startStatus := r.2.1, startId := r.2.2 }
  let s := writeRecord recId (e.bytes 0 0) r.1
  let n := queueNotice number w s
  let s := rewriteField recId 34 (flag8 n.2) n.1
  { s with detector := { s.detector with
      event := .recorded { e with notice := n.2 }
      latest := some { number := number, recId := recId } } }

/-- An event opens: recorded when the store grants a block, unrecorded otherwise (R22, R23). -/
def openEvent (w : WindowResult) (s : State) : State :=
  let resumed := s.detector.resumeMark
  let s := { s with detector := { s.detector with
    state := .event
    openingWindow := w.number
    openingCycle := w.cycle
    settleCount := 0
    pendingSettle := 0
    endAsked := false
    resumeMark := false } }
  match allocate .oneBlock 1 { newEntry .event s.survey.number true w.endMs with pins := some 0 } s with
  | (s, .made recId _) => openRecorded w resumed recId s
  | (s, _) =>
    { s with detector := { s.detector with event := .unrecorded, unrecorded := raise16 s.detector.unrecorded 1 } }

/-- A window taken in QUIET (R22). -/
def quietWindow (w : WindowResult) (s : State) : State × EventMark :=
  if w.valid && belowThreshold s.survey.settings w then
    let s := openEvent w s
    (s, eventMark s.detector.event true)
  else (s, .quiet)

/-! ### Closing (R34 to R36) -/

/-- The completed record of a closing event is written and marked CLOSED (R34). -/
def completeRecord (s : State) : State :=
  match s.detector.event with
  | .recorded w => closeEntry w.recId (writeRecord w.recId (w.bytes (worstChannel w.minRes) (pinCount s w.recId)) s)
  | _ => s

/-- The event closes and the detector enters a state without one (R34). -/
def closeEvent (next : DetectorState) (s : State) : State :=
  let s := completeRecord s
  { s with detector := { s.detector with event := .none, state := next, settleCount := 0, pendingSettle := 0 } }

/-- The flag an event takes when it is closed by a survey end or by entry to SAFE (R35, R36). -/
def EventWork.stopped (cut : Bool) (inEvent : Bool) (ms : Nat) (w : EventWork) : EventWork :=
  { w with
    endMs := if inEvent then some ms else w.endMs
    flags := if cut then { w.flags with cutShort := true } else { w.flags with surveyEnd := true } }

/-- Any event in progress is closed by a survey end, or with CUT_SHORT at entry to SAFE, and the detector enters HELD
(R35, R36). -/
def stopDetector (cut : Bool) (s : State) : State :=
  closeEvent .held (modifyEvent (EventWork.stopped cut (s.detector.state == .event) (surveyMs s)) s)

/-! ### Recovery, settling, relapse (R30 to R33) -/

/-- The end capture is considered at a recovery window (R31). -/
def considerEndCapture (w : WindowResult) (s : State) : State :=
  match s.detector.event with
  | .recorded e =>
    if s.detector.endAsked || startSlotOpen e.recId s then s
    else
      let s := (endCapture w.cycle { number := e.number, recId := e.recId } s).1
      { s with detector := { s.detector with endAsked := true } }
  | _ => s

/-- A recovery window (R30). -/
def recoveryWindow (w : WindowResult) (s : State) : State :=
  let s := modifyEvent (fun e => { ((e.lengthen 1).lower w).seeOverrange w with endMs := some w.endMs }) s
  let s := considerEndCapture w s
  let n := s.survey.settings.settle
  if n = 0 then closeEvent .quiet s
  else { s with detector := { s.detector with state := .settle, settleCount := n, pendingSettle := 0 } }

/-- A window taken in EVENT (R27, R29, R30). -/
def eventWindow (w : WindowResult) (s : State) : State × EventMark :=
  let mark := eventMark s.detector.event false
  let g := s.survey.settings
  if !w.valid then
    (modifyEvent (fun e => { (e.lengthen 1).seeOverrange w with
      flags := { ((e.lengthen 1).seeOverrange w).flags with invalidSeen := true } }) s, mark)
  else if isRecovered g w then (recoveryWindow w s, mark)
  else (modifyEvent (fun e => ((e.lengthen 1).deepen g w).seeOverrange w) s, mark)

/-- A relapse (R33). -/
def relapse (w : WindowResult) (s : State) : State :=
  let g := s.survey.settings
  let pending := s.detector.pendingSettle
  let s := modifyEvent (fun e =>
    { ((e.lengthen (pending + 1)).deepen g w).seeOverrange w with
      relapses := min 255 (e.relapses + 1), endMs := none }) s
  { s with detector := { s.detector with state := .event, pendingSettle := 0 } }

/-- A settle window (R32). -/
def settleWindow (w : WindowResult) (s : State) : State :=
  let s := modifyEvent (EventWork.seeOverrange w) s
  let s := { s with detector := { s.detector with
    settleCount := s.detector.settleCount - 1, pendingSettle := s.detector.pendingSettle + 1 } }
  if s.detector.settleCount = 0 then closeEvent .quiet s else s

/-- A window taken in SETTLE (R32, R33). -/
def settlingWindow (w : WindowResult) (s : State) : State × EventMark :=
  if !w.valid then
    (modifyEvent (fun e => { e.seeOverrange w with
      flags := { (e.seeOverrange w).flags with invalidSeen := true } }) s, .quiet)
  else if belowThreshold s.survey.settings w then
    (relapse w s, eventMark s.detector.event false)
  else (settleWindow w s, .quiet)

/-! ### Every window (R20) -/

/-- The detector leaves HELD when the survey is RUNNING, its clock counts, and the supply is NORMAL or HOLDUP (R20). -/
def leavesHeld (s : State) : Bool := s.survey.running && s.clock.isCounting && s.supply.state != .safe

/-- The detector takes a window result and answers its event mark (R20, R21). -/
def detectorWindow (w : WindowResult) (s : State) : State × EventMark :=
  match s.detector.state with
  | .held =>
    if leavesHeld s then quietWindow w { s with detector := { s.detector with state := .quiet } } else (s, .quiet)
  | .quiet => quietWindow w s
  | .event => eventWindow w s
  | .settle => settlingWindow w s

end Sys2Proof.Machine
end

