-- ==== Sys2Proof/Machine/Sampling.lean ====
section
/-! DEFINITION. Sample Port, Cycle Clock and Window RMS Unit (chapter 1): the strobe schedule, crossings, windows, and
the hand-over of windows and cycles to the detector, the Capture Engine and the Harmonic Unit. -/

namespace Sys2Proof.Machine

/-! ### Crossings and period (R8 to R10) -/

/-- The crossing history is dropped: not armed, no last code, no anchor (R7). -/
def Sampling.dropHistory (c : Sampling) : Sampling := { c with armed := false, lastRef := none, anchor := none }

/-- A measured period that is accepted (R10). -/
def periodInRange (p : Nat) : Bool := decide (14493 ≤ p) && decide (p ≤ 23529)

/-- A crossing at a computed tick is measured against the anchor (R10). -/
def Sampling.measure (c : Sampling) (tick : Nat) : Sampling :=
  match c.anchor with
  | none => { c with anchor := some tick }
  | some a =>
    if periodInRange (tick - a) then
      { c with period := tick - a, anchor := some tick, freeRunCount := 0, accepted := true }
    else c

/-- The crossing tick between set a and set b (R9). -/
def crossingTick (ta tb : Nat) (xa xb : Int) : Nat := ta + ((((tb - ta : Nat) : Int) * -xa) / (xb - xa)).toNat

/-- A detected crossing: disarmed, then measured, or the anchor forgotten when a set was patched (R9). -/
def Sampling.cross (c : Sampling) (a b : RefSample) : Sampling :=
  let c := { c with armed := false }
  if a.patched || b.patched then { c with anchor := none }
  else c.measure (crossingTick a.tick b.tick a.code b.code)

/-- An upward crossing lies between two consecutive settled sets (R9). -/
def isCrossing (armed : Bool) (a : Option RefSample) (b : RefSample) : Bool :=
  armed && a.any (fun x => decide (x.code < 0)) && decide (0 ≤ b.code)

/-- The Cycle Clock takes the reference channel's code of a settled set (R8, R9). -/
def Sampling.seeRef (declared : Nat) (b : RefSample) (c : Sampling) : Sampling :=
  let c := match c.lastRef with
    | some a => if isCrossing c.armed (some a) b then c.cross a b else c
    | none => c
  let arms := !b.patched && decide (b.code ≤ -((declared / 4 : Nat) : Int))
  { c with armed := c.armed || arms, lastRef := some b }

/-- The Cycle Clock takes a settled set; with no reference it detects nothing (R4, R7). -/
def Sampling.track (declared : Nat) (x : SampleSet) (c : Sampling) : Sampling :=
  match c.reference with
  | none => c
  | some ch => c.seeRef declared { code := x.codes.get ch, tick := c.strobeTick, patched := x.patched }

/-! ### Reference review (R7) -/

/-- The first channel that carries enough voltage (R7). -/
def chooseReference (declared : Nat) (rms : Tri Nat) : Option Channel :=
  allChannels.find? fun ch => decide (declared / 10 ≤ rms.get ch)

/-- The review on an end window: none when it is invalid; a changed reference drops the crossing history (R7). -/
def Sampling.review (declared : Nat) (w : WindowResult) (c : Sampling) : Sampling :=
  if !w.valid then c
  else if chooseReference declared w.rms = c.reference then c
  else { c.dropHistory with reference := chooseReference declared w.rms }

/-! ### Windows (R13 to R16) -/

/-- The RMS code of 64 codes (R14). -/
def rmsOf (codes : List Int) : Nat := min 32767 (isqrt (total (codes.map fun x => x.natAbs * x.natAbs) / 64))

/-- The residual of an RMS code (R15). -/
def residualOf (declared rms : Nat) : Nat := min 2000 (1000 * rms / declared)

/-- Patched sets among some sets. -/
def patchedCount (l : List SampleSet) : Nat := (l.filter SampleSet.patched).length

/-- Overrange sets among some sets. -/
def overrangeCount (l : List SampleSet) : Nat := (l.filter SampleSet.overrange).length

/-- A window or cycle is valid with 4 patched sets or fewer (R6, R16). -/
def isValidCount (patched : Nat) : Bool := decide (patched ≤ 4)

/-- The RMS codes of the three channels over some sets (R14). -/
def rmsOfSets (l : List SampleSet) : Tri Nat := Tri.of fun ch => rmsOf (l.map fun x => x.codes.get ch)

/-- Window number: 2k - 1 for the mid window of cycle k, 2k for its end window (R13). DESIGN CHOICE: it has no bound, as
the cycle number has none (log 76, unsafe). -/
def windowNumber (kind : WindowKind) (k : Nat) : Nat :=
  match kind with
  | .mid => 2 * k - 1
  | .end_ => 2 * k

/-- The window result over the 64 sets of the history (R13 to R16). -/
def windowResult (kind : WindowKind) (s : State) : WindowResult :=
  let rms := rmsOfSets s.sampling.history
  { number := windowNumber kind s.sampling.cycle
    cycle := s.sampling.cycle
    kind := kind
    endMs := s.clock.at s.sampling.strobeTick
    rms := rms
    residual := rms.map (residualOf s.survey.settings.declared)
    patched := patchedCount s.sampling.history
    overrange := s.sampling.history.any SampleSet.overrange
    valid := isValidCount (patchedCount s.sampling.history) }

/-- A window is handed to the Sag Detector and, with the detector's event mark, to the Harmonic Unit (R16, R21). -/
def handWindow (w : WindowResult) (s : State) : State :=
  let r := detectorWindow w { s with sampling := { s.sampling with latestWindow := w.number } }
  harmonicWindow w r.2 r.1

/-- The Cycle Clock reviews its reference on the end window (R7). -/
def reviewReference (w : WindowResult) (s : State) : State :=
  { s with sampling := s.sampling.review s.survey.settings.declared w }

/-- A window is evaluated when 64 sets are held (R13). -/
def evaluateWindow (kind : WindowKind) (s : State) : State :=
  if s.sampling.history.length < 64 then s
  else
    let w := windowResult kind s
    match kind with
    | .mid => handWindow w s
    | .end_ => handWindow w (reviewReference w s)

/-! ### The completed cycle (R6) -/

/-- The cycle as handed over (R6). -/
def completedCycle (c : Sampling) : CompletedCycle where
  number := c.cycle
  startTick := c.cycleStart
  period := c.cyclePeriod
  sets := c.assembled.reverse
  patched := patchedCount c.assembled
  overrange := overrangeCount c.assembled
  valid := isValidCount (patchedCount c.assembled)

/-- The completed cycle goes to the Capture Engine and to the Harmonic Unit, and a new one is assembled (R4, R6). -/
def handCycle (s : State) : State :=
  let c := completedCycle s.sampling
  harmonicCycle c (captureCycle c { s with sampling := { s.sampling with assembled := [] } })

/-- A settled set is placed: the Cycle Clock, the window history and the cycle being assembled take it (R4). -/
def placeSet (x : SampleSet) (s : State) : State :=
  let c := s.sampling.track s.survey.settings.declared x
  { s with sampling := { c with
    outstanding := false
    heldSet := some x.codes
    assembled := x :: c.assembled
    history := (x :: c.history).take 64 } }

/-- A set is settled (R4): it is placed, and at positions 31 and 63 a window is evaluated; at 63 the cycle is
complete. -/
def settle (x : SampleSet) (s : State) : State :=
  let s := placeSet x s
  if s.sampling.position = 31 then evaluateWindow .mid s
  else if s.sampling.position = 63 then handCycle (evaluateWindow .end_ s)
  else s

/-! ### Sample sets (R1 to R3) -/

/-- A converter code; -32768 is taken as -32767 (R1). -/
def takenCode (v : BitVec 16) : Int := max (-32767) v.toInt

/-- SAMPLE_SET_ARRIVAL: the answer to the outstanding strobe, or a late set (R1, R2). -/
def execSampleSetArrival (v1 v2 v3 : BitVec 16) (overrange : Bool) (s : State) : Host.Outcome State Fault Refusal :=
  whileRunning (fun s =>
    if s.sampling.outstanding then
      settle { codes := ⟨takenCode v1, takenCode v2, takenCode v3⟩, patched := false, overrange := overrange } s
    else { s with sampling := { s.sampling with lateSets := raise16 s.sampling.lateSets 1 } }) s

/-- The patched set: the codes last held, or 0 (R3). -/
def patchedSet (c : Sampling) : SampleSet where
  codes := c.heldSet.getD ⟨0, 0, 0⟩
  patched := true
  overrange := false

/-- The previous strobe, still outstanding, is patched (R3). -/
def patchOutstanding (s : State) : State :=
  if s.sampling.outstanding then
    settle (patchedSet s.sampling)
      { s with sampling := { s.sampling with patchedSets := raise16 s.sampling.patchedSets 1 } }
  else s

/-! ### The strobe schedule (R5, R6, R11, R18) -/

/-- The tick of strobe `n` of a cycle (R5). -/
def strobeAt (start period n : Nat) : Nat := start + n * period / 64

/-- The tick of the next strobe (R5). -/
def nextStrobe (c : Sampling) : Nat :=
  if c.position < 63 then strobeAt c.cycleStart c.cyclePeriod (c.position + 1) else c.cycleStart + c.cyclePeriod

/-- The free-run count at a cycle start: entry to free-run drops the history, and P is nominal while in it (R11). -/
def freeRunStep (nominal : Nat) (c : Sampling) : Sampling :=
  let n := if c.accepted then c.freeRunCount else min 4 (c.freeRunCount + 1)
  let c' := if n = 4 ∧ c.freeRunCount ≠ 4 then c.dropHistory else c
  { c' with freeRunCount := n, period := if n = 4 then nominal else c.period, accepted := false }

/-- The number of the new cycle (R6, R18). DESIGN CHOICE: it counts without bound; chapter 1 gives cycle numbers no width
(log 76, unsafe). -/
def nextCycleNumber (c : Sampling) : Nat := if c.firstCyclePending then 0 else c.cycle + 1

/-- What the survey's first cycle start does beside numbering: the window history, the ring and the kept marks are
emptied, the counters cleared, the clock starts and the first interval opens; a notice still queued has age 0 from here
on (R18, R26, R43, R66, R68). -/
def firstCycle (tick : Nat) (s : State) : State :=
  let s := emptyRing { s with
    clock := .counting 0 tick
    sampling := { s.sampling with history := [], patchedSets := 0, lateSets := 0, firstCyclePending := false }
    harmonic := { s.harmonic with midMark := none, endMark := none }
    link := s.link.forgetOpenings }
  if s.supply.state = .safe then s else openPartial 0 s

/-- The cycle number and the survey clock are copied into retained memory (R6). -/
def copyRetained (s : State) : State :=
  { s with retained := { s.retained with cycle := s.sampling.cycle, clock := surveyMs s } }

/-- A cycle starts at a tick (R5, R6, R11, R18). -/
def startCycle (tick : Nat) (s : State) : State :=
  let c := freeRunStep (nominalPeriod s.survey.settings) s.sampling
  let s' := { s with sampling := { c with
    cyclePeriod := c.period, cycleStart := tick, cycle := nextCycleNumber s.sampling } }
  copyRetained (if s.sampling.firstCyclePending then firstCycle tick s' else s')

/-- The new strobe is driven (R1, R5). -/
def driveStrobe (n tick : Nat) (s : State) : State :=
  { s with sampling := { s.sampling with outstanding := true, position := n, strobeTick := tick } }

/-- STROBE_DUE: the tick of the next strobe arrives; the previous strobe is patched if it is outstanding, a new cycle
starts at strobe 0, and the strobe is driven (R3, R5). -/
def execStrobeDue (s : State) : Host.Outcome State Fault Refusal :=
  whileRunning (fun s =>
    let tick := nextStrobe s.sampling
    let n := (s.sampling.position + 1) % 64
    let s := patchOutstanding { s with now := max s.now tick }
    driveStrobe n tick (if n = 0 then startCycle tick s else s)) s

end Sys2Proof.Machine
end

