-- ==== Sys2Proof/Machine/Status.lean ====
section
/-! DEFINITION. STATUS_QUERY and the contents of STATUS frames (10, R175; 12, R187). -/

namespace Sys2Proof.Machine

/-! ### Items -/

/-- A channel, 1 to 3, or 0 for none (R187, log 12). -/
def channelCode (c : Option Channel) : Nat := c.elim 0 Channel.number

/-- The number of the latest event, 0 for none. -/
def latestNumber (s : State) : Nat := s.detector.latest.elim 0 LatestEvent.number

/-! ### Sections (R175) -/

/-- SURVEY. -/
def surveySection (s : State) : List Byte :=
  u8 (surveyStateCode s.survey.running) ++ u16 s.survey.number ++ u16 s.survey.id ++ u32 s.survey.startSeconds
    ++ u32 (surveyMs s) ++ u8 s.supply.state.code ++ u8 s.supply.cause.code ++ flag8 s.link.silent

/-- The interval items of MEASURE (R79): with no interval open they are sent all the same, as 0 (log 48). -/
def intervalItems (h : Harmonic) : List Byte :=
  match h.interval with
  | some i => [1] ++ u32 i.index ++ u32 i.startMs ++ u32 i.valid ++ u32 i.invalid ++ u32 i.event
  | none => [0] ++ u32 0 ++ u32 0 ++ u32 0 ++ u32 0 ++ u32 0

/-- MEASURE. -/
def measureSection (s : State) : List Byte :=
  u8 (if s.sampling.freeRunCount = 4 then 1 else 0) ++ u8 (channelCode s.sampling.reference) ++ u32 s.sampling.period
    ++ u16 s.sampling.patchedSets ++ u16 s.sampling.lateSets
    ++ u8 s.detector.state.code ++ u16 (latestNumber s) ++ u16 (s.detector.nextEvent - 1) ++ u16 s.detector.unrecorded
    ++ intervalItems s.harmonic ++ u16 s.harmonic.dropped ++ u16 (orZero s.harmonic.lastInterval)

/-- A slot of CAPTURE (R44): the items of a free slot are sent all the same, as 0 (log 59). -/
def slotItems : Option Slot → List Byte
  | some x => [1] ++ u8 x.kind.code ++ u16 x.recId ++ u8 x.total ++ u8 x.written
  | none => [0, 0, 0, 0, 0, 0]

/-- CAPTURE: the four slots are a fixed run, without an entry count (log 60). -/
def captureSection (s : State) : List Byte :=
  s.capture.slots.toList.flatMap slotItems ++ u16 s.capture.ownRefused ++ u16 s.capture.displaced

/-- The record kinds in the order of R82. -/
def allKinds : List RecordKind := [.header, .event, .waveformStart, .waveformEnd, .companion, .interval, .note, .context]

/-- The id counter; 65536 does not fit two bytes and is sent as a free value (log 21). -/
def idCounterCode (n : Nat) : Nat := if n < 65536 then n else Config.fullIdCounter n

/-- STORE: the counts by kind are a fixed run, without an entry count (log 60). -/
def storeSection (s : State) : List Byte :=
  u16 s.store.freeCount ++ (allKinds.flatMap fun k => u16 (s.store.dir.filter fun e => e.kind == k).length)
    ++ u8 (s.store.dir.filter Entry.open_).length ++ u16 (idCounterCode s.store.idCounter) ++ flag8 s.store.writing
    ++ u16 s.store.shed ++ u16 s.store.refused

/-- NOTES: one byte is the stack depth and the entry count of the list it leads (R175, R187; log 49). -/
def notesSection (s : State) : List Byte :=
  u8 s.notes.stack.length ++ s.notes.stack.flatMap u8 ++ u8 s.notes.contexts ++ u16 (s.notes.nextNote - 1)

/-- OFFERS. -/
def offersSection (s : State) : List Byte :=
  u8 s.agreement.list.length ++ s.agreement.list.flatMap ListedOffer.bytes ++ u16 s.agreement.revision

/-- The provider record toward a station (R124); a free one is sent as 0. -/
def providerItems (st : Station) : Option Provider → List Byte
  | some p => u8 st.val ++ u8 p.position ++ u32 p.activationMs ++ u8 p.captures ++ u16 p.missed
  | none => [0, 0, 0, 0, 0, 0, 0, 0, 0]

/-- AGREEMENT toward a station (R118, R124). -/
def agreementSection (st : Station) (s : State) : List Byte :=
  let r := (peer s st).requester
  u8 r.state.code ++ u8 r.position ++ flag8 r.mismatch ++ u8 r.reason ++ providerItems st (peer s st).provider

/-- REPORT (R139); kind and printer are none before the first report (log 12), and the printer-paused byte then is that
of PRINTING, 1 (log 75). -/
def reportSection (s : State) : List Byte :=
  let c := s.composer
  u8 c.state.code ++ u16 c.job ++ u8 (if c.job = 0 then 0 else c.request.kind.code)
    ++ u8 (if c.job = 0 then 0 else c.printer.val) ++ u8 (orZero c.queuePosition) ++ u8 c.credit ++ u16 c.line
    ++ u8 (pausedCode c.paused) ++ u16 c.gone ++ u8 c.lastOutcome

/-- PRINTER (R164). DESIGN CHOICE: R164 gives its items at a printer station; one not strapped PRN sends the same 15
bytes, the paper sensor as 0 whatever its level (log 64, unsafe). -/
def printerSection (s : State) : List Byte :=
  let p := s.printer
  flag8 p.ready ++ flag8 (paperPresent s) ++ u8 p.head.code ++ u8 ((runningJob s).elim 0 Job.credit)
    ++ u8 p.buffer.length ++ u16 p.linesDiscarded ++ u16 p.linesMissing ++ u16 p.cellsDropped ++ u16 p.jobsPrinted
    ++ u16 p.jobsEnded

/-- PRINT_JOB of a station (R164); none is sent as 0. -/
def printJobSection (st : Station) (s : State) : List Byte :=
  match jobFrom s st with
  | some j =>
    u8 j.origin.val ++ u16 j.number ++ u8 j.kind ++ u8 j.state.code ++ u16 j.received ++ u16 j.printed
  | none => [0, 0, 0, 0, 0, 0, 0, 0, 0]

/-- Frames of a priority in the transmit queue (R171). -/
def occupancy (s : State) (p : Nat) : Nat := (s.link.queue.filter fun f => f.kind.priority == p).length

/-- The present stations as two bytes, bit n for station n (R187). -/
def presentBits (s : State) : Nat := total (allStations.map fun st => if isPresent s st then 2 ^ st.val else 0)

/-- LINK: the occupancy by priority is a fixed run, without an entry count (log 60). -/
def linkSection (s : State) : List Byte :=
  let l := s.link
  u16 l.sent ++ u16 l.received ++ u16 l.checkFailures ++ u16 l.badLengths ++ u16 l.unknownKinds ++ u16 l.bitErrors
    ++ u16 l.arbitrationLosses ++ u16 l.dropped ++ ((List.range 6).flatMap fun p => u8 (occupancy s p))
    ++ u16 (presentBits s)

/-- The contents of a section, or the index of the byte out of its values (R175, 12.1). Byte 3 is judged for the
sections that carry a station or a group only (log 37). -/
def sectionOf (number arg : Nat) (s : State) : Except Nat (List Byte) :=
  match number with
  | 1 => .ok (surveySection s)
  | 2 => .ok (measureSection s)
  | 3 => .ok (captureSection s)
  | 4 => .ok (storeSection s)
  | 5 => .ok (notesSection s)
  | 6 => .ok (offersSection s)
  | 7 => if h : arg < 16 then .ok (agreementSection ⟨arg, h⟩ s) else .error 3
  | 8 => .ok (reportSection s)
  | 9 => .ok (printerSection s)
  | 10 => if h : arg < 16 then .ok (printJobSection ⟨arg, h⟩ s) else .error 3
  | 11 => .ok (linkSection s)
  | 12 => if 1 ≤ arg ∧ arg ≤ 7 then .ok (groupBytes s.survey.settings arg) else .error 3
  | _ => .error 2

/-- STATUS_QUERY after its length (R175). -/
def takeStatusQuery (f : RxFrame) (s : State) : State :=
  match sectionOf (byteAt f.payload 2) (byteAt f.payload 3) s with
  | .error i => answer f .statusQuery (.refused .badField i) s
  | .ok contents => send .status f.sender (f.payload.take 3 ++ contents) s

/-- STATUS_QUERY: 3 bytes (R175). -/
def execStatusQuery (f : RxFrame) (s : State) : Host.Outcome State Fault Refusal :=
  receive f (request .statusQuery 3 f (takeStatusQuery f)) s

end Sys2Proof.Machine
end

