-- ==== Sys2Proof/Machine/Survey.lean ====
section
/-! DEFINITION. The survey logic (10, 10.7 and 10.8): SURVEY_SET, SURVEY_START, SURVEY_END. -/

namespace Sys2Proof.Machine

/-! ### Settings fields (10.7, 12.1) -/

/-- What the values of a part of a field may be (10.7). -/
inductive Values where
  /-- a choice: no other value is taken -/
  | choice (ok : Nat → Bool)
  /-- a number, clamped to its bounds -/
  | range (lo hi : Nat)
  /-- L: the largest allowed value not above it, 1 when it is below 1 -/
  | minutes

/-- A part of a field: its width in bytes and its values. Every field but an offer has one part (12.1). -/
structure FieldPart where
  width : Nat
  values : Values

/-- A field of a group: its parts, and how their values are stored. -/
structure SettingField where
  parts : List FieldPart
  put : List Nat → Settings → Settings

/-- A choice of 0 or 1. -/
def yesNo : Values := .choice fun v => decide (v ≤ 1)

/-- A field of one part. -/
def oneField (width : Nat) (values : Values) (put : Nat → Settings → Settings) : SettingField :=
  { parts := [{ width := width, values := values }], put := fun l => put (l.headD 0) }

/-- Group G1 (10.7). -/
def fields1 : List SettingField :=
  [oneField 1 (.choice fun v => v == 50 || v == 60) (fun v g => { g with nominal := v }),
    oneField 2 (.range 1000 23170) (fun v g => { g with declared := v })]

/-- Group G2 (10.7). -/
def fields2 : List SettingField :=
  [oneField 2 (.range 100 990) (fun v g => { g with threshold := v }),
    oneField 1 (.range 0 100) (fun v g => { g with hysteresis := v }),
    oneField 2 (.range 0 989) (fun v g => { g with interruption := v }),
    oneField 1 (.range 0 20) (fun v g => { g with settle := v })]

/-- Group G3 (10.7). -/
def fields3 : List SettingField :=
  [oneField 1 (.range 0 8) (fun v g => { g with preCycles := v }),
    oneField 1 (.range 1 32) (fun v g => { g with postCycles := v }),
    oneField 1 (.range 0 8) (fun v g => { g with endCycles := v })]

/-- Group G4 (10.7). -/
def fields4 : List SettingField :=
  [oneField 1 .minutes (fun v g => { g with minutes := v }),
    oneField 1 yesNo (fun v g => { g with ring := v == 1 }),
    oneField 2 (.range 50 2000) (fun v g => { g with holdUp := v })]

/-- The parts of an offer: a non-empty channel set, pre, post, decimation, rate (10.7). -/
def offerParts : List FieldPart :=
  [{ width := 1, values := .choice fun v => v % 8 != 0 }, { width := 1, values := .range 0 8 },
    { width := 1, values := .range 1 24 }, { width := 1, values := .choice fun v => v == 1 || v == 2 },
    { width := 1, values := .range 1 60 }]

/-- The offer of its five values. -/
def offerOfValues (l : List Nat) : Offer where
  channels := channelsOf (l.getD 0 0)
  pre := l.getD 1 0
  post := l.getD 2 0
  decimation := l.getD 3 0
  rate := l.getD 4 0

/-- The field of an offer of G5, by its place. -/
def offerField (i : Fin 6) : SettingField :=
  { parts := offerParts, put := fun l g => { g with offers := g.offers.set i (some (offerOfValues l)) } }

/-- Group G5 (10.7). -/
def fields5 : List SettingField :=
  oneField 1 (.range 0 6) (fun v g => { g with offerCount := v }) :: ([0, 1, 2, 3, 4, 5] : List (Fin 6)).map offerField

/-- Group G6 (10.7). -/
def fields6 : List SettingField :=
  [oneField 1 yesNo (fun v g => { g with seek := v == 1 }),
    oneField 1 yesNo (fun v g => { g with serve := v == 1 }),
    oneField 1 (.range 1 3) (fun v g => { g with wants := { g.wants with channels := v } }),
    oneField 1 (.range 0 8) (fun v g => { g with wants := { g.wants with pre := v } }),
    oneField 1 (.range 1 24) (fun v g => { g with wants := { g.wants with post := v } }),
    oneField 1 (.range 1 60) (fun v g => { g with wants := { g.wants with rate := v } }),
    oneField 1 yesNo (fun v g => { g with wants := { g.wants with decimation2 := v == 1 } })]

/-- Group G7 (10.7). -/
def fields7 : List SettingField :=
  [oneField 1 (.range 0 3) (fun v g => { g with bankA := v }),
    oneField 1 (.range 0 3) (fun v g => { g with bankB := v }),
    oneField 1 (.choice fun v => v == 8 || v == 9) (fun v g => { g with cellWidth := v }),
    oneField 1 yesNo (fun v g => { g with colour := v == 1 }),
    oneField 1 (.range 0 3) (fun v g => { g with energy := v })]

/-- The fields of a group, in mask order (12.1); none outside G1 to G7. -/
def groupFields : Nat → List SettingField
  | 1 => fields1
  | 2 => fields2
  | 3 => fields3
  | 4 => fields4
  | 5 => fields5
  | 6 => fields6
  | 7 => fields7
  | _ => []

/-! ### SURVEY_SET (R176) -/

/-- The fields a mask selects, in field order. -/
def selectedFields (mask : Nat) (l : List SettingField) : List SettingField :=
  (l.zipIdx.filter fun x => mask.testBit x.2).map Prod.fst

/-- The width of a field. -/
def SettingField.width (f : SettingField) : Nat := total (f.parts.map FieldPart.width)

/-- A value read for a part of a field, with the payload byte it begins at. -/
structure PartValue where
  values : Values
  at_ : Nat
  value : Nat

/-- A value of 1 or 2 bytes at a payload byte. -/
def valueAt (bs : List Byte) (i width : Nat) : Nat := if width = 1 then byteAt bs i else u16At bs i

/-- The values of the parts of a field from payload byte `i` on. -/
def readParts (bs : List Byte) : Nat → List FieldPart → List PartValue
  | _, [] => []
  | i, p :: ps => { values := p.values, at_ := i, value := valueAt bs i p.width } :: readParts bs (i + p.width) ps

/-- The values of the selected fields from payload byte `i` on. -/
def readFields (bs : List Byte) : Nat → List SettingField → List (SettingField × List PartValue)
  | _, [] => []
  | i, f :: fs => (f, readParts bs i f.parts) :: readFields bs (i + f.width) fs

/-- The allowed interval lengths, greatest first (10.7). -/
def allowedMinutes : List Nat := [60, 30, 20, 15, 10, 5, 3, 2, 1]

/-- A value as it is written: clamped when it is a number outside its values (R176 step 4). -/
def Values.clamp (v : Nat) : Values → Nat
  | .choice _ => v
  | .range lo hi => min hi (max lo v)
  | .minutes => (allowedMinutes.find? fun a => decide (a ≤ v)).getD 1

/-- A choice that is no valid choice (R176 step 3). -/
def PartValue.isBadChoice (p : PartValue) : Bool :=
  match p.values with
  | .choice ok => !ok p.value
  | _ => false

/-- The value written for a part. -/
def PartValue.written (p : PartValue) : Nat := p.values.clamp p.value

/-- A value that is clamped (R176 step 4). -/
def PartValue.isClamped (p : PartValue) : Bool := p.written != p.value

/-- The payload byte of the first part that meets a test. -/
def firstPart (test : PartValue → Bool) (l : List (SettingField × List PartValue)) : Option Nat :=
  ((l.flatMap Prod.snd).find? test).map PartValue.at_

/-- Every selected field is written (R176). -/
def writeFields (l : List (SettingField × List PartValue)) (g : Settings) : Settings :=
  l.foldl (fun g x => x.1.put (x.2.map PartValue.written) g) g

/-- A group outside G1 to G7, an empty mask, or a mask bit beyond the group's fields: the payload byte out of its values
(R176 step 1, 12.1). -/
def groupFault (bs : List Byte) : Option Nat :=
  if groupFields (byteAt bs 2) = [] then some 2
  else if byteAt bs 3 = 0 ∨ 2 ^ (groupFields (byteAt bs 2)).length ≤ byteAt bs 3 then some 3
  else none

/-- The fields a SURVEY_SET selects. -/
def chosenFields (bs : List Byte) : List SettingField := selectedFields (byteAt bs 3) (groupFields (byteAt bs 2))

/-- The first fault of a SURVEY_SET that is no matter of its values: too short for group and mask, a group or mask out
of its values, another length than the mask calls for (R174, R176 step 1, log 25). -/
def setFault (bs : List Byte) : Option Nat :=
  if bs.length < 3 then some (bs.length + 1)
  else
    match groupFault bs with
    | some i => some i
    | none => lengthFault bs.length (3 + total ((chosenFields bs).map SettingField.width))

/-- SURVEY_SET judged (R176). -/
def takeSurveySet (f : RxFrame) (s : State) : State :=
  let bs := f.payload
  match setFault bs with
  | some i => answer f .surveySet (.refused .badField i) s
  | none =>
    if s.survey.running && byteAt bs 2 != 7 then answer f .surveySet (.refused .locked 0) s
    else
      let l := readFields bs 4 (chosenFields bs)
      match firstPart PartValue.isBadChoice l with
      | some i => answer f .surveySet (.refused .badField i) s
      | none =>
        let s := { s with survey := { s.survey with settings := writeFields l s.survey.settings } }
        answer f .surveySet ((firstPart PartValue.isClamped l).elim (.accepted 0 0) fun i => .clamped i 0 0) s

/-- SURVEY_SET: addressed to this station (R174, R176). -/
def execSurveySet (f : RxFrame) (s : State) : Host.Outcome State Fault Refusal :=
  receive f (fun s => if f.broadcast then s else takeSurveySet f s) s

/-! ### SURVEY_START (R177) -/

/-- ERASE or KEEP. -/
def isErase (bs : List Byte) : Bool := byteAt bs 8 == 0

/-- The first field out of its values (R177 step 1). -/
def startFault (bs : List Byte) : Option Nat :=
  if u16At bs 2 = 0 then some 2
  else if 3155760000 ≤ u32At bs 4 then some 4
  else if 1 < byteAt bs 8 then some 8
  else none

/-- The store as it stands can give the header its block (R101, R177 step 7). -/
def headerFits (s : State) : Bool :=
  decide (1 ≤ s.store.freeCount + sheddable s .oneBlock) && decide (s.store.idCounter < 65536)

/-- The first check of R177 that fails, with its index. -/
def startRefusal (bs : List Byte) (s : State) : Option (Reason × Nat) :=
  let g := s.survey.settings
  match startFault bs with
  | some i => some (.badField, i)
  | none =>
    if s.survey.running then some (.running, 0)
    else if g.threshold ≤ g.interruption then some (.badField, 0)
    else if 40 < g.preCycles + g.postCycles then some (.badField, 0)
    else if !isErase bs && (decide (60000 < s.store.idCounter) || decide (65535 ≤ s.retained.lastSurvey)) then
      some (.needsErase, 0)
    else if s.supply.state = .safe then some (.safe, 0)
    else if !isErase bs && !headerFits s then some (.storeFull, 0)
    else none

/-- The number of the survey that starts (R177 steps 1 and 2). -/
def startNumber (bs : List Byte) (s : State) : Nat :=
  if isErase bs && s.retained.lastSurvey == 65535 then 1 else s.retained.lastSurvey + 1

/-- The survey header is allocated and written (R101, R177 step 3). -/
def placeHeader (number id seconds : Nat) (s : State) : State :=
  match allocate .oneBlock 1 (newEntry .header number false 0) s with
  | (s, .made recId _) => writeRecord recId (headerBytes number id seconds s.survey.settings) s
  | (s, _) => s

/-- The changes every block makes at an accepted survey start (R177 step 5: R18, R40, R44, R79, R101, R111). -/
def blocksStart (s : State) : State :=
  { s with
    clock := .holding 0
    sampling := { s.sampling with firstCyclePending := true }
    detector := { s.detector with
      nextEvent := 1, latest := none, unrecorded := 0, resumeMark := false, event := .none, state := .held }
    capture := { s.capture with openOrder := 0, ownRefused := 0, displaced := 0 }
    harmonic := { s.harmonic with dropped := 0, lastInterval := none }
    notes := { stack := [], contexts := 0, nextNote := 1 }
    store := { s.store with shed := 0, refused := 0 } }

/-- A start that passes every step is accepted in its order (R177). -/
def acceptStart (bs : List Byte) (s : State) : State :=
  let number := startNumber bs s
  let id := u16At bs 2
  let seconds := u32At bs 4
  let s := setMarker true s
  let s := if isErase bs then eraseStore s else s
  let s := { s with retained := { s.retained with lastSurvey := number } }
  let s := setRetainedSeconds seconds (placeHeader number id seconds s)
  let s := { s with survey := { s.survey with running := true, number := number, id := id, startSeconds := seconds } }
  agreementsStart (blocksStart s)

/-- SURVEY_START after its length (R177). -/
def takeSurveyStart (f : RxFrame) (s : State) : State :=
  match startRefusal f.payload s with
  | some r => answer f .surveyStart (.refused r.1 r.2) s
  | none => answer f .surveyStart (.accepted (startNumber f.payload s) 0) (acceptStart f.payload s)

/-- SURVEY_START: 8 bytes (R177). -/
def execSurveyStart (f : RxFrame) (s : State) : Host.Outcome State Fault Refusal :=
  receive f (request .surveyStart 8 f (takeSurveyStart f)) s

/-! ### SURVEY_END (R178) -/

/-- The header of the running survey is rewritten with its state and the detector's next event number (R178). -/
def closeHeader (s : State) : State :=
  match lastHeader s with
  | none => s
  | some h => rewriteField h.id 10 (u16 s.detector.nextEvent) (rewriteField h.id 9 (u8 HeaderState.ended.code) s)

/-- What a survey end closes, in its order, up to the header (R178). -/
def closeSurvey (s : State) : State :=
  let s := stopDetector false s
  let s := { s with detector := { s.detector with resumeMark := false } }
  let s := closeAllShort .truncated s
  let s := closeInterval (surveyMs s) true s
  let s := endAgreements s
  closeHeader { s with notes := { s.notes with stack := [] } }

/-- The survey is ended: closed, the marker CONSISTENT, the state STANDBY, the clock stopped, no offer open (R178). -/
def endSurvey (s : State) : State :=
  let s := setMarker false (closeSurvey s)
  let ms := surveyMs s
  formOffers { s with
    survey := { s.survey with running := false }
    clock := .holding ms
    sampling := { s.sampling with firstCyclePending := false } }

/-- SURVEY_END after its length (R178). -/
def takeSurveyEnd (f : RxFrame) (s : State) : State :=
  if s.survey.running then answer f .surveyEnd (.accepted 0 0) (endSurvey s)
  else answer f .surveyEnd (.refused .notRunning 0) s

/-- A SURVEY_END that a stop cuts off once the header reads ENDED: the marker is left WRITING (R98, R178). -/
def cutSurveyEnd (f : RxFrame) (s : State) : State :=
  if s.survey.running then setMarker true (closeSurvey s) else answer f .surveyEnd (.refused .notRunning 0) s

/-- SURVEY_END: 1 byte (R178). -/
def execSurveyEnd (f : RxFrame) (s : State) : Host.Outcome State Fault Refusal :=
  receive f (request .surveyEnd 1 f (takeSurveyEnd f)) s

end Sys2Proof.Machine
end

