-- ==== Sys2Proof/Machine/Supply.lean ====
section
/-! DEFINITION. The Supply Monitor (chapter 11): hold-up, the SAFE procedure and the return from it, the stop, the
restart with repair and resume. -/

namespace Sys2Proof.Machine

/-! ### Hold-up (R180, R181) -/

/-- Entry to HOLDUP: the timer starts with the allowance of G4, and the printer stops being ready (R158, R180). -/
def enterHoldUp (s : State) : State :=
  loseReady { s with supply := { s.supply with
    state := .holdup, holdUpTimer := startTimer s s.survey.settings.holdUp } }

/-- SUPPLY_WARN_ASSERT (R180): the level, and in NORMAL the entry to HOLDUP. -/
def execSupplyWarnAssert (s : State) : Host.Outcome State Fault Refusal :=
  let s := { s with pins := { s.pins with supplyWarn := true } }
  .next (if s.powered && s.supply.state == .normal then withLoopback enterHoldUp s else s)

/-! ### The SAFE procedure (R182) -/

/-- Step 4: while RUNNING, the header's last-safe seconds and next event number (R182). DESIGN CHOICE: the 4 bytes take
the low 32 bits of the retained seconds counter (log 71, unsafe). -/
def safeHeader (s : State) : State :=
  if s.survey.running then
    match lastHeader s with
    | none => s
    | some h => rewriteField h.id 10 (u16 s.detector.nextEvent) (rewriteField h.id 14 (u32 (retainedSeconds s)) s)
  else s

/-- Step 6: the supply enters SAFE (R182). -/
def becomeSafe (s : State) : State := { s with supply := { s.supply with state := .safe, holdUpTimer := none } }

/-- The steps of the SAFE procedure, in order (R182). -/
def safeSteps : List (State → State) :=
  [stopDetector true, closeAllShort .cutShort, fun s => closeInterval (surveyMs s) true s, safeHeader,
    setMarker false, becomeSafe]

/-- A frame that arrives between two steps of the procedure is acted on by its block as the meaning of its kind says
(R182). -/
def takeFrame (kind : FrameKind) (f : RxFrame) (s : State) : Host.Outcome State Fault Refusal :=
  match kind with
  | .triggerNotice => execTriggerNotice f s
  | .offers => execOffers f s
  | .agreeRequest => execAgreeRequest f s
  | .agreeAccept => execAgreeAccept f s
  | .agreeReject => execAgreeReject f s
  | .agreeEnd => execAgreeEnd f s
  | .jobOpen => execJobOpen f s
  | .jobQueued => execJobQueued f s
  | .printGo => execPrintGo f s
  | .printLine => execPrintLine f s
  | .printState => execPrintState f s
  | .printEnd => execPrintEnd f s
  | .jobCancel => execJobCancel f s
  | .surveySet => execSurveySet f s
  | .surveyStart => execSurveyStart f s
  | .surveyEnd => execSurveyEnd f s
  | .statusQuery => execStatusQuery f s
  | .fetchSetup => execFetchSetup f s
  | .fetch => execFetch f s
  | .discard => execDiscard f s
  | .contextOpen => execContextOpen f s
  | .contextClose => execContextClose f s
  | .noteAdd => execNoteAdd f s
  | .noteStrike => execNoteStrike f s
  | .reportRequest => execReportRequest f s
  | .reportCancel => execReportCancel f s
  | .answer => execAnswer f s
  | .status => execStatus f s
  | .fetchData => execFetchData f s
  | .presence => execPresence f s

/-- Frames are taken one after the other. -/
def takeFrames : List SafeFrame → State → Host.Outcome State Fault Refusal
  | [], s => .next s
  | x :: xs, s => andThen (takeFrame x.kind x.frame s) (takeFrames xs)

/-- The frames that arrive when so many steps of the procedure have been made. -/
def framesAt (made : Nat) (during : List SafeFrame) : List SafeFrame := during.filter fun x => x.made.val == made

/-- So many of the steps of the SAFE procedure, each finished before the next begins, with the frames that arrive up to
there: those that arrive between two steps are taken there, in the supply state of that moment (R182). -/
def makeSafeSteps : Nat → List SafeFrame → State → Host.Outcome State Fault Refusal
  | 0, during, s => takeFrames (framesAt 0 during) s
  | made + 1, during, s => andThen (makeSafeSteps made during s) fun s =>
      takeFrames (framesAt (made + 1) during) ((safeSteps.getD made id) s)

/-- What the expiry of the hold-up timer does in a running part whose timer runs; otherwise the command changes nothing
(log 2, log 5). -/
def onHoldUpExpiry (act : State → Host.Outcome State Fault Refusal) (s : State) : Host.Outcome State Fault Refusal :=
  match s.powered, s.supply.holdUpTimer with
  | true, some d => act { s with now := max s.now d }
  | _, _ => .next s

/-- HOLD_UP_TIMER: the allowance has run out, and the procedure is made whole (R181, R182). -/
def execHoldUpTimer (s : State) (during : List SafeFrame := []) : Host.Outcome State Fault Refusal :=
  onHoldUpExpiry (makeSafeSteps safeSteps.length during) s

/-! ### Release (R181, R183) -/

/-- The resume count of the last header rises by 1 (R183, R186). -/
def raiseResumes (s : State) : State :=
  match lastHeader s with
  | none => s
  | some h => rewriteField h.id 12 (u16 (raise16 (u16At (recordBytes s h) 12) 1)) s

/-- The return from SAFE while RUNNING: marker, resume count, resume mark, a PARTIAL interval (R183). -/
def resumeFromSafe (s : State) : State :=
  let s := raiseResumes (setMarker true s)
  let s := { s with detector := { s.detector with resumeMark := true } }
  openPartial (surveyMs s) s

/-- The release of SUPPLY-WARN in HOLDUP or SAFE (R181, R183). -/
def releaseWarn (s : State) : State :=
  match s.supply.state with
  | .normal => s
  | .holdup => startSettle { s with supply := { s.supply with state := .normal, holdUpTimer := none } }
  | .safe =>
    let s := { s with supply := { s.supply with state := .normal, holdUpTimer := none } }
    startSettle (if s.survey.running then resumeFromSafe s else s)

/-- SUPPLY_WARN_RELEASE: the level, and the return to NORMAL (R181, R183). -/
def execSupplyWarnRelease (s : State) : Host.Outcome State Fault Refusal :=
  let s := { s with pins := { s.pins with supplyWarn := false } }
  .next (if s.powered then releaseWarn s else s)

/-! ### The stop (R60, R98, R109, R110, R178, R182, R184) -/

/-- How far the part has come when a stop falls: the step in which it falls is carried out up to that place, and its
whole when the place does not lie on its way (log 6). -/
def reachStop (point : StopPoint) (s : State) : Host.Outcome State Fault Refusal :=
  match point with
  | .between => .next s
  | .inSafeProcedure made during => onHoldUpExpiry (makeSafeSteps made during) s
  | .inNoteAdd f => receive f (request .noteAdd (textNeed 5 f.payload) f (cutNoteAdd f)) s
  | .inNoteStrike f => receive f (request .noteStrike 3 f (cutNoteStrike f)) s
  | .inDiscard f => receive f (request .discard 3 f (cutDiscard f)) s
  | .inSurveyEnd f => receive f (request .surveyEnd 1 f (cutSurveyEnd f)) s

/-- The part stops where it stands: retained memory and the marker keep their values, and nothing acts (R60, R184). -/
def stopAt (point : StopPoint) (s : State) : Host.Outcome State Fault Refusal :=
  andThen (reachStop point s) fun s => .next { s with powered := false }

/-- SUPPLY_CUT: the part stops where it stands (R184). -/
def execSupplyCut (s : State) (point : StopPoint := .between) : Host.Outcome State Fault Refusal := stopAt point s

/-- RESET_PIN_ASSERT: the part stops where it stands (R60). -/
def execResetPinAssert (s : State) (point : StopPoint := .between) : Host.Outcome State Fault Refusal := stopAt point s

/-! ### Restart: the store (R99, R100, R185) -/

/-- The cause of a restart (R185). -/
def restartCause (source : RestartSource) (backupLost : Bool) : RestartCause :=
  if backupLost then .cold
  else
    match source with
    | .resetPin => .pinReset
    | .supplyRise => .supplyReturn

/-- An OPEN capture record is closed by the repair (R99 step 1). -/
def repairCapture (s : State) (e : Entry) : State :=
  match e.desc with
  | some d => if e.open_ && e.kind.isWave then cutRecord e.id d e.parent (e.kind == .waveformStart) .cutShort s else s
  | none => s

/-- An OPEN EVENT record is closed by the repair: CUT_SHORT, end ms equal to start ms, its worst channel formed, the pin
count taken from the directory (R99 step 2). -/
def repairEvent (s : State) (e : Entry) : State :=
  if e.open_ && e.kind == .event then
    let bs := recordBytes s e
    let s := rewriteField e.id 6 (u8 (withBit (byteAt bs 6) 0 true)) s
    let s := rewriteField e.id 11 (u32 (u32At bs 7)) s
    let s := rewriteField e.id 25 (u8 (worstChannel (tri16At bs 19))) s
    let s := rewriteField e.id 35 (u8 (pinCount s e.id)) s
    closeEntry e.id (rewriteField e.id 36 (u8 (withBit (byteAt bs 36) 0 true)) s)
  else s

/-- Every hold is cleared (R99 step 3, R100). -/
def clearAllHolds (s : State) : State :=
  { s with store := { s.store with dir := s.store.dir.map fun e => { e with hold := false } } }

/-- The free list is rebuilt: the blocks in no chain, in ascending order (R99 step 4). -/
def rebuildFree (s : State) : State :=
  let used := s.store.dir.flatMap Entry.chain
  let free := (List.range' 0 4096).filter fun b => !used.contains b
  { s with store := { s.store with free := free, freeCount := free.length } }

/-- The repair (R99). -/
def repairStore (s : State) : State :=
  let s := s.store.dir.foldl repairCapture s
  let s := s.store.dir.foldl repairEvent s
  setMarker false (rebuildFree (clearAllHolds s))

/-- The store after a restart: cleared, repaired or kept; no cursor in use, both counters 0 (R100, R185). -/
def restartStore (cause : RestartCause) (s : State) : State :=
  let s := match cause with
    | .cold => { s with store := Store.cleared, retained := { s.retained with lastSurvey := 0 } }
    | .pinReset => repairStore s
    | .supplyReturn => if s.store.writing then repairStore s else clearAllHolds s
  let s := if cause = .cold then setRetainedSeconds 0 s else s
  { s with store := { s.store with cursors := [], useStamp := 0, shed := 0, refused := 0 } }

/-! ### Restart: the survey (R179, R185, R186) -/

/-- Every working block in its restart state, the survey in STANDBY with default settings (R19, R41, R60, R78, R113,
R129, R146, R164, R179). -/
def restartBlocks (cause : RestartCause) (straps : Straps) (s : State) : State :=
  { s with
    powered := true
    pins := { s.pins with straps := straps }
    clock := .holding 0
    detector := Detector.restarted
    capture := Capture.restarted
    harmonic := Harmonic.restarted
    notes := Notes.restarted
    agreement := Agreement.restarted
    peers := Vector.replicate 16 Peer.empty
    composer := Composer.restarted
    printer := Printer.restarted
    link := Link.restarted s.now
    survey := { running := false, number := 0, id := 0, startSeconds := 0, settings := Settings.default }
    supply := { state := .normal, holdUpTimer := none, cause := cause } }

/-- A survey header reads RUNNING. -/
def headerRuns (bs : List Byte) : Bool := byteAt bs 9 == HeaderState.running.code

/-- The start value of a resumed survey clock (R186). -/
def resumedMs (seconds startSeconds copied : Nat) : Nat :=
  let v := 1000 * (seconds - startSeconds)
  min 4294967295 (if v < copied + 25 then 1000 * ceilDiv (copied + 25) 1000 else v)

/-- The highest of the numbers read from some records, 0 for none. -/
def highestOf (read : List Byte → Nat) (s : State) (l : List Entry) : Nat :=
  (l.map fun e => read (recordBytes s e)).foldl max 0

/-- The latest event restored: the survey's EVENT record with the highest event number (R41). -/
def restoredLatest (s : State) (survey : Nat) : Option LatestEvent :=
  let n := highestOf (fun bs => u16At bs 1) s (recordsOf s .event survey)
  (findEvent s survey n).map fun e => { number := n, recId := e.id }

/-- The detector's numbers restored from the store, the resume mark set (R41). -/
def restoreDetector (survey headerNext : Nat) (s : State) : State :=
  let n := highestOf (fun bs => u16At bs 1) s (recordsOf s .event survey)
  { s with detector := { s.detector with
    nextEvent := max (n + 1) headerNext, latest := restoredLatest s survey, resumeMark := true } }

/-- The Note Unit's counters restored from the store (R113). -/
def restoreNotes (survey : Nat) (s : State) : State :=
  { s with notes := { s.notes with
    contexts := highestOf (fun bs => byteAt bs 1) s (recordsOf s .context survey)
    nextNote := highestOf (fun bs => u16At bs 1) s (recordsOf s .note survey) + 1 } }

/-- The survey is resumed (R186): settings and numbers from the header, marker, resume count, clock, detector, notes. -/
def resumeSurvey (bs : List Byte) (s : State) : State :=
  let number := u16At bs 1
  let start := u32At bs 5
  let s := { s with survey := {
    running := true, number := number, id := u16At bs 3, startSeconds := start, settings := settingsOf bs } }
  let s := raiseResumes (setMarker true s)
  let s := { s with clock := .counting (resumedMs (retainedSeconds s) start s.retained.clock) s.now }
  restoreNotes number (restoreDetector number (u16At bs 10) s)

/-- The survey named by a header, in STANDBY (R179). -/
def standbySurvey (bs : List Byte) (s : State) : State :=
  { s with survey := { s.survey with number := u16At bs 1, id := u16At bs 3, startSeconds := u32At bs 5 } }

/-- What the header with the highest record id gives: ENDED_BY_RESET at PIN_RESET, a resume at SUPPLY_RETURN, STANDBY
otherwise (R185). -/
def settleSurvey (cause : RestartCause) (s : State) : State :=
  match lastHeader s with
  | none => s
  | some h =>
    let bs := recordBytes s h
    if !headerRuns bs then standbySurvey bs s
    else
      match cause with
      | .supplyReturn => resumeSurvey bs s
      | _ => standbySurvey bs (rewriteField h.id 9 (u8 HeaderState.endedByReset.code) s)

/-- NORMAL when SUPPLY-WARN is clear, HOLDUP with its timer when it is asserted (R185). -/
def settleSupply (s : State) : State :=
  if s.pins.supplyWarn then
    { s with supply := { s.supply with state := .holdup, holdUpTimer := startTimer s s.survey.settings.holdUp } }
  else s

/-- The sampling blocks start: the first strobe of the first cycle is driven at once, the cycle number and the clock are
copied, and a resumed survey's PARTIAL interval opens (R6, R19, R78, R186). -/
def startSampling (s : State) : State :=
  let cycle := if s.survey.running then s.retained.cycle + 1 else 0
  let s := copyRetained { s with sampling := Sampling.restarted (nominalPeriod s.survey.settings) s.now cycle }
  if s.survey.running then openPartial (surveyMs s) s else s

/-- The Agreement Unit's first forming after a restart; a resumed survey makes one OFFERS due (R115, R116, R129). -/
def restartOffers (s : State) : State :=
  let s := if (openOffers s).isEmpty then s else raiseRevision s
  offersDue (replaceList s)

/-- RESTART: cause, store, survey, supply, sampling, and then the frames of the restarted part (R173, R185, R186). -/
def restartPart (source : RestartSource) (backupLost : Bool) (straps : Straps) (s : State) : State :=
  let cause := restartCause source backupLost
  let s := restartStore cause (restartBlocks cause straps s)
  let s := startSampling (settleSupply (settleSurvey cause s))
  handPresence (restartOffers (startSettle s))

/-- RESTART (R185). -/
def execRestart (source : RestartSource) (backupLost : Bool) (straps : Straps) (s : State) :
    Host.Outcome State Fault Refusal :=
  .next (restartPart source backupLost straps s)

end Sys2Proof.Machine
end

