-- ==== Sys2Proof/Machine/Dispatch.lean ====
section
/-! DEFINITION. The meaning of every command: one arm per constructor of Instr, one direct call each. -/

namespace Sys2Proof.Machine

open Sys2Proof

def exec (i : Instr) (s : State) : Host.Outcome State Fault Refusal :=
  match i with
  | .strobeDue => Sys2Proof.Machine.execStrobeDue s
  | .sampleSetArrival v1 v2 v3 overrange => Sys2Proof.Machine.execSampleSetArrival v1 v2 v3 overrange s
  | .offersSendLimitExpiry => Sys2Proof.Machine.execOffersSendLimitExpiry s
  | .offersRefreshTimer => Sys2Proof.Machine.execOffersRefreshTimer s
  | .retryTimerExpiry peer => Sys2Proof.Machine.execRetryTimerExpiry peer s
  | .answerTimerExpiry peer => Sys2Proof.Machine.execAnswerTimerExpiry peer s
  | .triggerNotice f => Sys2Proof.Machine.execTriggerNotice f s
  | .offers f => Sys2Proof.Machine.execOffers f s
  | .agreeRequest f => Sys2Proof.Machine.execAgreeRequest f s
  | .agreeAccept f => Sys2Proof.Machine.execAgreeAccept f s
  | .agreeReject f => Sys2Proof.Machine.execAgreeReject f s
  | .agreeEnd f => Sys2Proof.Machine.execAgreeEnd f s
  | .presence f => Sys2Proof.Machine.execPresence f s
  | .presenceTimer => Sys2Proof.Machine.execPresenceTimer s
  | .peerAbsent station => Sys2Proof.Machine.execPeerAbsent station s
  | .transmitAttempt => Sys2Proof.Machine.execTransmitAttempt s
  | .arbitrationLoss => Sys2Proof.Machine.execArbitrationLoss s
  | .bitErrorAbort => Sys2Proof.Machine.execBitErrorAbort s
  | .frameSent => Sys2Proof.Machine.execFrameSent s
  | .surveySet f => Sys2Proof.Machine.execSurveySet f s
  | .surveyStart f => Sys2Proof.Machine.execSurveyStart f s
  | .surveyEnd f => Sys2Proof.Machine.execSurveyEnd f s
  | .statusQuery f => Sys2Proof.Machine.execStatusQuery f s
  | .fetchSetup f => Sys2Proof.Machine.execFetchSetup f s
  | .fetch f => Sys2Proof.Machine.execFetch f s
  | .discard f => Sys2Proof.Machine.execDiscard f s
  | .contextOpen f => Sys2Proof.Machine.execContextOpen f s
  | .contextClose f => Sys2Proof.Machine.execContextClose f s
  | .noteAdd f => Sys2Proof.Machine.execNoteAdd f s
  | .noteStrike f => Sys2Proof.Machine.execNoteStrike f s
  | .reportRequest f => Sys2Proof.Machine.execReportRequest f s
  | .reportCancel f => Sys2Proof.Machine.execReportCancel f s
  | .jobQueued f => Sys2Proof.Machine.execJobQueued f s
  | .openingTimerExpiry => Sys2Proof.Machine.execOpeningTimerExpiry s
  | .printGo f => Sys2Proof.Machine.execPrintGo f s
  | .printState f => Sys2Proof.Machine.execPrintState f s
  | .finishingTimerExpiry => Sys2Proof.Machine.execFinishingTimerExpiry s
  | .printEnd f => Sys2Proof.Machine.execPrintEnd f s
  | .jobOpen f => Sys2Proof.Machine.execJobOpen f s
  | .printLine f => Sys2Proof.Machine.execPrintLine f s
  | .jobCancel f => Sys2Proof.Machine.execJobCancel f s
  | .lineTimerExpiry => Sys2Proof.Machine.execLineTimerExpiry s
  | .headRowDone => Sys2Proof.Machine.execHeadRowDone s
  | .feedRowDone => Sys2Proof.Machine.execFeedRowDone s
  | .paperOut => Sys2Proof.Machine.execPaperOut s
  | .paperPresent => Sys2Proof.Machine.execPaperPresent s
  | .settleTimerExpiry => Sys2Proof.Machine.execSettleTimerExpiry s
  | .supplyWarnAssert => Sys2Proof.Machine.execSupplyWarnAssert s
  | .holdUpTimer during => Sys2Proof.Machine.execHoldUpTimer s during
  | .supplyWarnRelease => Sys2Proof.Machine.execSupplyWarnRelease s
  | .supplyCut point => Sys2Proof.Machine.execSupplyCut s point
  | .restart source backupLost straps => Sys2Proof.Machine.execRestart source backupLost straps s
  | .answer f => Sys2Proof.Machine.execAnswer f s
  | .status f => Sys2Proof.Machine.execStatus f s
  | .fetchData f => Sys2Proof.Machine.execFetchData f s
  | .frameDiscarded bits => Sys2Proof.Machine.execFrameDiscarded bits s
  | .resetPinAssert point => Sys2Proof.Machine.execResetPinAssert s point

end Sys2Proof.Machine
end

