-- ==== Sys2Proof/Safety.lean ====
section
/-! DEFINITION. The words claims are stated in: which frames reach this part, the state a delivered frame finds, frames
handed to the line, and the laws that every step keeps. -/

namespace Sys2Proof.Machine

/-! ### Frames -/

/-- The frame of a command that is a frame of one kind (10.4). -/
def frameOf : Instr → Option RxFrame
  | .triggerNotice f | .offers f | .agreeRequest f | .agreeAccept f | .agreeReject f | .agreeEnd f | .presence f
  | .surveySet f | .surveyStart f | .surveyEnd f | .statusQuery f | .fetchSetup f | .fetch f | .discard f
  | .contextOpen f | .contextClose f | .noteAdd f | .noteStrike f | .reportRequest f | .reportCancel f
  | .jobQueued f | .printGo f | .printState f | .printEnd f | .jobOpen f | .printLine f | .jobCancel f
  | .answer f | .status f | .fetchData f => some f
  | _ => none

/-- The command that a frame of a kind is, received on its own (10.4). -/
def commandOf : FrameKind → RxFrame → Instr
  | .triggerNotice => .triggerNotice
  | .offers => .offers
  | .agreeRequest => .agreeRequest
  | .agreeAccept => .agreeAccept
  | .agreeReject => .agreeReject
  | .agreeEnd => .agreeEnd
  | .jobOpen => .jobOpen
  | .jobQueued => .jobQueued
  | .printGo => .printGo
  | .printLine => .printLine
  | .printState => .printState
  | .printEnd => .printEnd
  | .jobCancel => .jobCancel
  | .surveySet => .surveySet
  | .surveyStart => .surveyStart
  | .surveyEnd => .surveyEnd
  | .statusQuery => .statusQuery
  | .fetchSetup => .fetchSetup
  | .fetch => .fetch
  | .discard => .discard
  | .contextOpen => .contextOpen
  | .contextClose => .contextClose
  | .noteAdd => .noteAdd
  | .noteStrike => .noteStrike
  | .reportRequest => .reportRequest
  | .reportCancel => .reportCancel
  | .answer => .answer
  | .status => .status
  | .fetchData => .fetchData
  | .presence => .presence

/-- A frame is for this station: a broadcast, or addressed to it (R169 step 4). -/
abbrev IsForUs (f : RxFrame) (s : State) : Prop := f.broadcast = true ∨ f.dest = ownStation s

/-- A frame that the running part delivers to a block: it passes every step of R169. -/
abbrev Reaches (f : RxFrame) (s : State) : Prop :=
  s.powered = true ∧ f.payload.length ≤ 120 ∧ IsForUs f s ∧ f.sender ≠ ownStation s

/-- A console request that is acted on: it reaches the part, is no broadcast, and has the length its kind requires
(R174). -/
abbrev Asks (f : RxFrame) (need : Nat) (s : State) : Prop :=
  Reaches f s ∧ f.broadcast = false ∧ f.payload.length = need

/-- The payload length a console request of a fixed layout needs; a CONTEXT_OPEN and a NOTE_ADD need their text as their
length byte gives it, or at least the bytes before it (12.1, R187). SURVEY_SET, whose length follows from its field
mask, is judged by a rule of its own (R176). -/
def requestNeed : Instr → Option (RxFrame × FrameKind × Nat)
  | .surveyStart f => some (f, .surveyStart, 8)
  | .surveyEnd f => some (f, .surveyEnd, 1)
  | .statusQuery f => some (f, .statusQuery, 3)
  | .fetchSetup f => some (f, .fetchSetup, 8)
  | .fetch f => some (f, .fetch, 1)
  | .discard f => some (f, .discard, 3)
  | .contextOpen f =>
    some (f, .contextOpen, if f.payload.length < 2 then 2 else 2 + (f.payload.getD 1 0).toNat)
  | .contextClose f => some (f, .contextClose, 1)
  | .noteAdd f => some (f, .noteAdd, if f.payload.length < 5 then 5 else 5 + (f.payload.getD 4 0).toNat)
  | .noteStrike f => some (f, .noteStrike, 3)
  | .reportRequest f => some (f, .reportRequest, 17)
  | .reportCancel f => some (f, .reportCancel, 1)
  | _ => none

/-- Whether a frame that is no request has the payload length of its kind's layout (12.1, R187). -/
def fitsLayout : Instr → Option (RxFrame × Bool)
  | .triggerNotice f | .agreeAccept f => some (f, f.payload.length == 8)
  | .agreeRequest f => some (f, f.payload.length == 5)
  | .agreeReject f => some (f, f.payload.length == 4)
  | .agreeEnd f | .jobQueued f | .printGo f | .printState f | .printEnd f => some (f, f.payload.length == 3)
  | .presence f | .jobOpen f => some (f, f.payload.length == 10)
  | .jobCancel f => some (f, f.payload.length == 2)
  | .offers f => some (f, decide (5 ≤ f.payload.length) && decide ((f.payload.getD 4 0).toNat ≤ 6)
      && f.payload.length == 5 + 6 * (f.payload.getD 4 0).toNat)
  | .printLine f => some (f, decide (6 ≤ f.payload.length)
      && f.payload.length == 6 + 2 * (f.payload.getD 5 0).toNat)
  | .answer f => some (f, f.payload.length == 9)
  | .status f => some (f, decide (3 ≤ f.payload.length))
  | .fetchData f => some (f, decide (2 ≤ f.payload.length) && decide (f.payload.length ≤ 98))
  | _ => none

/-- The block of a frame's kind takes it: the Print Unit takes its three kinds at a station strapped PRN, from a recorder
station (R147); the block of any other kind takes every frame delivered to it. -/
def blockTakes (i : Instr) (s : State) : Bool :=
  match i with
  | .jobOpen f | .printLine f | .jobCancel f => s.pins.straps.prn && decide (f.sender.val < 8)
  | _ => true

/-- The commands within which loopback can run (R170). -/
def runsLoopback : Instr → Bool
  | .reportRequest _ | .reportCancel _ | .printGo _ | .jobOpen _ | .printLine _ | .jobCancel _ => true
  | _ => false

/-- The state a delivered frame finds: its sender heard now, the frame counted (R169). -/
def heard (f : RxFrame) (s : State) : State :=
  { setPeer f.sender { peer s f.sender with lastHeard := s.now } s with
    link := { s.link with waitFree := none, received := min 65535 (s.link.received + 1) } }

/-- The state a command with loopback works on: nothing waits for delivery within the part (R170, log 10). -/
def noLoopback (s : State) : State := { s with link := { s.link with loopback := [] } }

/-- A frame is handed to the transmit queue (R171). -/
def handed (g : TxFrame) (s : State) : State := { s with link := (s.link.handOver g).1 }

/-- A frame of a kind is handed over for one station. -/
def sentTo (st : Station) (kind : FrameKind) (payload : List Byte) (s : State) : State :=
  handed (newFrame kind (some st) payload) s

/-- A request is answered by an ANSWER to its sender (R174). -/
def answered (f : RxFrame) (kind : FrameKind) (r : Reply) (s : State) : State :=
  sentTo f.sender .answer (r.payload (f.payload.headD 0) kind) s

/-! ### The bits of a frame (R165, R166) -/

/-- A number in so many bits, most significant first (R165). -/
def fieldBits (n v : Nat) : List Bool := (List.range n).map fun k => v.testBit (n - 1 - k)

/-- The 30 frame kinds in the order of their kind numbers, from 1 on (12.1). -/
def frameKinds : List FrameKind :=
  [.triggerNotice, .offers, .agreeRequest, .agreeAccept, .agreeReject, .agreeEnd, .jobOpen, .jobQueued, .printGo,
    .printLine, .printState, .printEnd, .jobCancel, .surveySet, .surveyStart, .surveyEnd, .statusQuery, .fetchSetup,
    .fetch, .discard, .contextOpen, .contextClose, .noteAdd, .noteStrike, .reportRequest, .reportCancel, .answer,
    .status, .fetchData, .presence]

/-- The priority of each of them: a notice 0, the agreement frames 1, the job frames 2 but PRINT_LINE 4, requests and
answers 3, PRESENCE 5 (10.4). -/
def kindPriorities : List Nat := [0, 1, 1, 1, 1, 1, 2, 2, 2, 4, 2, 2, 2] ++ List.replicate 16 3 ++ [5]

/-- The bits the check byte covers: kind, broadcast, destination, length and payload (R166). -/
def coveredBits (kind : Nat) (broadcast : Bool) (dest length : Nat) (payload : List Byte) : List Bool :=
  fieldBits 5 kind ++ [broadcast] ++ fieldBits 4 dest ++ fieldBits 8 length
    ++ payload.flatMap fun b => fieldBits 8 b.toNat

/-- The check value: for each bit the feedback is the top bit of the value exclusive-or the bit, the value is shifted
left with its top bit lost, and a feedback of 1 exclusive-ors it with 0x07 (R166). -/
def checkValue (bits : List Bool) : Nat :=
  bits.foldl (fun v b => if decide (128 ≤ v) = b then 2 * v % 256 else (2 * v % 256) ^^^ 7) 0

/-- The five bits of a line before place `i` are equal (R165). -/
def followsFive (levels : List Bool) (i : Nat) : Bool :=
  decide (5 ≤ i) && [List.replicate 5 true, List.replicate 5 false].contains ((levels.drop (i - 5)).take 5)

/-- A line is the stuffed form of some bits: after every five equal bits, inserted ones among them, stands one of the
opposite level, and the other bits are those given, in their order (R165). -/
def StuffedAs (body levels : List Bool) : Prop :=
  (∀ i, followsFive levels i = true → levels[i]? = some (!levels.getD (i - 1) false))
  ∧ ((List.range levels.length).filter fun i => !followsFive levels i).map (fun i => levels.getD i false) = body

/-! ### The print head (R149, R153, R159, R163) -/

/-- The head goes on when the printer is ready and no row is being made: a feed with its next row, a line of the ACTIVE
job's with the row it stands at, and an idle head with row 0 of the oldest line of the ACTIVE job (R153, R159, R163). -/
def headGoesOn (twoc : Bool) (p : Printer) : Printer :=
  if p.ready = false ∨ p.row ≠ none then p
  else
    match p.head, p.queue.find? (fun j => j.state == .active), p.buffer with
    | .feeding _, _, _ => { p with row := some (blankRow true) }
    | .printing r, some j, l :: _ => { p with row := some (lineRow j.render twoc l r) }
    | .idle, some j, l :: _ => { p with head := .printing 0, row := some (lineRow j.render twoc l 0) }
    | _, _, _ => p

/-! ### Texts (R103) -/

/-- A character byte that is kept as it is. -/
abbrev IsPrintable (b : Byte) : Prop := 0x20 ≤ b.toNat ∧ b.toNat ≤ 0x7E

/-- The text as it is held: each byte outside the character set replaced by '?', then cut. -/
def textHeld (limit : Nat) (text : List Byte) : List Byte :=
  (text.map fun b => if IsPrintable b then b else 0x3F).take limit

/-- What an accepted text is answered: ACCEPTED, or CLAMPED with the index of its first byte that was replaced or lies
beyond the cut, the text's first byte being byte `start` of the payload. -/
def textAnswered (limit start : Nat) (text : List Byte) (result recId : Nat) : Reply :=
  match (List.range text.length).find? fun k => decide (¬IsPrintable (text.getD k 0)) || decide (limit ≤ k) with
  | none => .accepted result recId
  | some k => .clamped (start + k) result recId

/-! ### Codes -/

/-- The code a taken set holds for a code of the converter: -32768 is taken as -32767 (R1). -/
def codeTaken (v : BitVec 16) : Int := if v = 0x8000#16 then -32767 else v.toInt

/-! ### Captures -/

/-- The cycles of the ring bear consecutive numbers up to the one before cycle `c` (R42). -/
def RingBefore (s : State) (c : Nat) : Prop :=
  ∀ (k : Nat) (x : CompletedCycle), s.capture.ring[k]? = some x → x.number + (s.capture.ring.length - k) = c

/-- No two open slots have one record or one parent event, and no slot's record is a parent (R44, R47, R49). -/
def SlotsApart (s : State) : Prop :=
  ∀ i j : Fin 4, ∀ x, slot s i = some x → ∀ y, slot s j = some y →
    (i ≠ j → x.recId ≠ y.recId ∧ (x.parent = none ∨ x.parent.map LatestEvent.recId ≠ y.parent.map LatestEvent.recId))
    ∧ ∀ p, x.parent = some p → p.recId ≠ y.recId

/-- The record of an own capture granted at cycle `c0`: its descriptor, three blocks for each cycle, the cycles of the
ring it covers written block by block, and its slot as long as cycles are still to come (R45 to R51, R53). -/
def CaptureGranted (s t : State) (kind : SlotKind) (event : LatestEvent) (c0 pre post id : Nat) (full : Bool) : Prop :=
  let taken := min pre s.capture.ring.length
  ∃ y, findEntry t id = some y ∧ ∃ d, y.desc = some d
    ∧ y.kind = (if kind = .ownStart then .waveformStart else .waveformEnd)
    ∧ y.survey = s.survey.number ∧ y.time = surveyMs s ∧ y.parent = some event.recId
    ∧ d.survey = s.survey.number ∧ d.parent = some event ∧ d.origin = none
    ∧ d.channels = ⟨true, true, true⟩ ∧ d.decimation = 1 ∧ d.wanted = pre + post ∧ d.clipped = decide (taken < pre)
    ∧ d.truncated = false ∧ d.cutShort = false
    ∧ d.total = d.preTaken + d.postTaken ∧ d.firstCycle + d.preTaken = c0 ∧ d.written = d.preTaken
    ∧ (full = true → d.preTaken = taken ∧ d.postTaken = post)
    ∧ (full = false → d.total < taken + post ∧ d.preTaken = min taken d.total)
    ∧ y.chain.length = 3 * d.total ∧ y.open_ = decide (0 < d.postTaken)
    ∧ (0 < d.postTaken → ∃ i, ∃ x, slot t i = some x ∧ x.recId = id ∧ x.kind = kind ∧ x.parent = some event
        ∧ x.first = d.firstCycle ∧ x.total = d.total ∧ x.written = d.written)
    ∧ ∀ c ∈ s.capture.ring, d.firstCycle ≤ c.number → ∀ ch : Channel,
        Memory.read t.store.mem (128 * y.chain.getD ((ch.number - 1) * d.total + (c.number - d.firstCycle)) 0) 128
          = (c.sets.map fun x => x.codes.get ch).flatMap code16

/-- The span of a companion asked for with an age, as R55 places it: of the pre and post cycles wanted around the estimate
of the origin's opening cycle, those not older than the oldest cycle of the ring. It gives the first of them, how many
lie before the estimate and how many do not, and whether any was dropped; nothing when none is left. -/
def companionSpan (s : State) (age pre post : Nat) : Option (Nat × Nat × Nat × Bool) :=
  let inProgress := s.capture.ring.getLast?.elim s.sampling.cycle fun c => c.number + 1
  let oldest := s.capture.ring.head?.elim inProgress CompletedCycle.number
  let estimate : Int := (inProgress : Int) - ((age + 1) / 2 : Nat)
  let wanted := (List.range (pre + post)).map fun k => estimate - (pre : Int) + (k : Int)
  let kept := wanted.filter fun c => decide ((oldest : Int) ≤ c)
  kept.head?.map fun first => (first.toNat, (kept.filter fun c => decide (c < estimate)).length,
    (kept.filter fun c => decide (estimate ≤ c)).length, decide (kept.length < wanted.length))

/-- The capture of slot `i` is closed short: with no cycle written its record is released; otherwise the record keeps
the blocks of its written cycles, its descriptor is cut to them with the flag of the cause, and it is CLOSED. The
parent event reads NONE without a waveform id, or PARTIAL with it (R57 to R59). -/
def ClosedShort (s t : State) (i : Fin 4) (cause : ShortCause) : Prop :=
  ∀ x, slot s i = some x → ∀ e, findEntry s x.recId = some e → ∀ d, e.desc = some d → d.written ≤ d.total →
    let region := regionBlocks d.decimation d.total
    let kept := (List.range (channelCount d.channels)).flatMap fun r =>
      (e.chain.drop (r * region)).take (regionBlocks d.decimation d.written)
    let start := x.kind == .ownStart
    (d.written = 0 → findEntry t x.recId = none ∧ ∀ b ∈ e.chain, b ∈ t.store.free)
    ∧ (0 < d.written →
        findEntry t x.recId = some { e with
          chain := kept
          open_ := false
          desc := some { d with
            total := d.written
            truncated := d.truncated || decide (cause = .truncated)
            cutShort := d.cutShort || decide (cause = .cutShort) } }
        ∧ ∀ b ∈ e.chain, b ∉ kept → b ∈ t.store.free)
    ∧ ∀ p, x.parent = some p → ∀ ev, findEntry s p.recId = some ev → ev.chain ≠ [] →
        let bs := recordBytes t ev
        byteAt bs (if start then 28 else 29) = (if d.written = 0 then 0 else 2)
        ∧ u16At bs (if start then 30 else 32) = (if d.written = 0 then 0 else x.recId)
        ∧ bitAt bs 6 (if start then 1 else 2) = decide (0 < d.written)

/-! ### An event stopped, and the repair -/

/-- The channel whose minimum is the lowest, the lowest-numbered of equal ones (R34). -/
def worstOf (m : Tri Nat) : Nat := if m.v1 ≤ m.v2 ∧ m.v1 ≤ m.v3 then 1 else if m.v2 ≤ m.v3 then 2 else 3

/-- The record of the event in progress is completed and CLOSED by a survey end, or with CUT_SHORT by the entry to SAFE:
an event in EVENT ends at the survey clock's value as it then stands, one in SETTLE keeps its end. The closing of its
captures may still write its capture fields, in bytes 6 and 28 to 33; with none open and no record to shed, nothing else
does (R34 to R36). -/
def EventStopped (cut : Bool) (s t : State) : Prop :=
  ∀ e, s.detector.event = .recorded e → ∀ x, findEntry s e.recId = some x → x.kind = .event → x.open_ = true →
    x.chain.length = 1 → x.desc = none →
    let c : EventWork := { e with
      endMs := if s.detector.state = .event then some (surveyMs t) else e.endMs
      flags := if cut then { e.flags with cutShort := true } else { e.flags with surveyEnd := true } }
    let bytes := c.bytes (worstOf e.minRes) (x.pins.getD 0)
    findEntry t e.recId = some { x with open_ := false }
    ∧ (∀ n, 1 ≤ n → n ≤ 128 → n ≠ 6 → (n < 28 ∨ 33 < n) → byteAt (recordBytes t x) n = byteAt bytes n)
    ∧ bitAt (recordBytes t x) 6 0 = c.endMs.isSome
    ∧ ((∀ i y, slot s i = some y → y.parent.map LatestEvent.recId ≠ some e.recId) →
        (s.harmonic.interval = none ∨ 11 ≤ s.store.freeCount) → recordBytes t x = bytes)

/-- What the repair makes of the records, those of the directory before it (R99 steps 1 to 3): an OPEN capture is cut to
its written cycles with CUT_SHORT and its event reads PARTIAL, or it is released whole and its event reads NONE; an OPEN
event is closed with CUT_SHORT, its end ms its start ms, its worst channel formed, its pin count taken from the
directory; every other record stands but for its hold, and no byte changes but in the blocks of events and headers. -/
def StoreRepaired (s t : State) : Prop :=
  (∀ e ∈ s.store.dir, ∀ d, e.open_ = true → e.kind.isWave = true → e.desc = some d →
    let region := regionBlocks d.decimation d.total
    let kept := (List.range (channelCount d.channels)).flatMap fun r =>
      (e.chain.drop (r * region)).take (regionBlocks d.decimation d.written)
    let start := e.kind == .waveformStart
    (d.written = 0 → findEntry t e.id = none)
    ∧ (0 < d.written → d.written ≤ d.total → findEntry t e.id = some { e with
        chain := kept, open_ := false, hold := false, desc := some { d with total := d.written, cutShort := true } })
    ∧ ∀ p ev, e.parent = some p → findEntry s p = some ev → ev.kind = .event →
      (∀ x ∈ s.store.dir, x.open_ = true → x.kind.isWave = true → x.parent = some p →
        x = e ∨ (x.kind == .waveformStart) ≠ start) →
      byteAt (recordBytes t ev) (if start then 28 else 29) = (if d.written = 0 then 0 else 2)
      ∧ u16At (recordBytes t ev) (if start then 30 else 32) = (if d.written = 0 then 0 else e.id)
      ∧ bitAt (recordBytes t ev) 6 (if start then 1 else 2) = decide (0 < d.written))
  ∧ (∀ e ∈ s.store.dir, e.open_ = true → e.kind = .event →
    let before := recordBytes s e
    let after := recordBytes t e
    findEntry t e.id = some { e with open_ := false, hold := false }
    ∧ bitAt after 6 0 = true ∧ u32At after 11 = u32At before 7
    ∧ byteAt after 25 = worstOf ⟨u16At before 19, u16At before 21, u16At before 23⟩
    ∧ byteAt after 35 = e.pins.getD 0 % 256
    ∧ bitAt after 36 0 = true ∧ (∀ k, 1 ≤ k → bitAt after 36 k = bitAt before 36 k)
    ∧ ∀ n, 1 ≤ n → n ≤ 128 → n ≠ 6 → n ≠ 25 → n < 11 ∨ 14 < n → n < 28 ∨ 33 < n → n ≠ 35 → n ≠ 36 →
        byteAt after n = byteAt before n)
  ∧ (∀ e ∈ s.store.dir, (e.open_ = false ∨ e.kind ≠ .event ∧ (e.kind.isWave = false ∨ e.desc = none)) →
      findEntry t e.id = some { e with hold := false })
  ∧ ∀ a, (∀ e ∈ s.store.dir, (e.kind = .event ∨ e.kind = .header) →
        a < 128 * e.firstBlock ∨ 128 * e.firstBlock + 128 ≤ a) →
      Memory.readByte t.store.mem a = Memory.readByte s.store.mem a

/-! ### The survey header -/

/-- The survey header takes these fields, each from a byte number on, and is still the last one; its other bytes stand
(12.2, R178, R182, R183, R185, R186). -/
def HeaderTakes (s t : State) (h : Entry) (fields : List (Nat × List Byte)) : Prop :=
  let address := fun n => 128 * h.firstBlock + n - 1
  (∃ h', lastHeader t = some h' ∧ h'.id = h.id ∧ h'.chain = h.chain)
  ∧ (∀ f ∈ fields, Memory.read t.store.mem (address f.1) f.2.length = f.2)
  ∧ ∀ n, 1 ≤ n → n ≤ 128 → (∀ f ∈ fields, n < f.1 ∨ f.1 + f.2.length ≤ n) →
      Memory.readByte t.store.mem (address n) = Memory.readByte s.store.mem (address n)

/-! ### The survey settings (10.7, 12.1) -/

/-- A settings field of one value: its width in bytes, the values it takes, what a number outside them is clamped to,
and where it is held (10.7). -/
structure SettingRow where
  width : Nat
  taken : Nat → Bool
  held : Nat → Nat
  put : Nat → Settings → Settings

/-- A choice of the values listed. -/
def choiceOf (width : Nat) (values : List Nat) (put : Nat → Settings → Settings) : SettingRow :=
  { width := width, taken := values.contains, held := id, put := put }

/-- A number, held within its bounds. -/
def numberIn (width lo hi : Nat) (put : Nat → Settings → Settings) : SettingRow :=
  { width := width, taken := fun _ => true, held := fun v => if v < lo then lo else if hi < v then hi else v, put := put }

/-- The interval length L in minutes: the largest allowed value not above the one sent, 1 below 1 (R176 step 4). -/
def minutesHeld (v : Nat) : Nat :=
  if v < 2 then 1 else if v < 3 then 2 else if v < 5 then 3 else if v < 10 then 5 else if v < 15 then 10
  else if v < 20 then 15 else if v < 30 then 20 else if v < 60 then 30 else 60

/-- The fields of a group in mask order, those of G5 but for its six offers (10.7, 12.1). -/
def settingRows : Nat → List SettingRow
  | 1 => [choiceOf 1 [50, 60] fun v g => { g with nominal := v },
      numberIn 2 1000 23170 fun v g => { g with declared := v }]
  | 2 => [numberIn 2 100 990 fun v g => { g with threshold := v }, numberIn 1 0 100 fun v g => { g with hysteresis := v },
      numberIn 2 0 989 fun v g => { g with interruption := v }, numberIn 1 0 20 fun v g => { g with settle := v }]
  | 3 => [numberIn 1 0 8 fun v g => { g with preCycles := v }, numberIn 1 1 32 fun v g => { g with postCycles := v },
      numberIn 1 0 8 fun v g => { g with endCycles := v }]
  | 4 => [{ width := 1, taken := fun _ => true, held := minutesHeld, put := fun v g => { g with minutes := v } },
      choiceOf 1 [0, 1] fun v g => { g with ring := v == 1 }, numberIn 2 50 2000 fun v g => { g with holdUp := v }]
  | 5 => [numberIn 1 0 6 fun v g => { g with offerCount := v }]
  | 6 => [choiceOf 1 [0, 1] fun v g => { g with seek := v == 1 }, choiceOf 1 [0, 1] fun v g => { g with serve := v == 1 },
      numberIn 1 1 3 fun v g => { g with wants := { g.wants with channels := v } },
      numberIn 1 0 8 fun v g => { g with wants := { g.wants with pre := v } },
      numberIn 1 1 24 fun v g => { g with wants := { g.wants with post := v } },
      numberIn 1 1 60 fun v g => { g with wants := { g.wants with rate := v } },
      choiceOf 1 [0, 1] fun v g => { g with wants := { g.wants with decimation2 := v == 1 } }]
  | 7 => [numberIn 1 0 3 fun v g => { g with bankA := v }, numberIn 1 0 3 fun v g => { g with bankB := v },
      choiceOf 1 [8, 9] fun v g => { g with cellWidth := v }, choiceOf 1 [0, 1] fun v g => { g with colour := v == 1 },
      numberIn 1 0 3 fun v g => { g with energy := v }]
  | _ => []

/-- The widths of a group's fields in mask order, an offer's 5 bytes (12.1). -/
def settingWidths (group : Nat) : List Nat :=
  (settingRows group).map SettingRow.width ++ if group = 5 then List.replicate 6 5 else []

/-- The fields that a mask selects, in mask order: bit k for the field at place k (R176). -/
def masked {α : Type} (mask : Nat) (fields : List α) : List α :=
  (fields.zipIdx.filter fun x => mask.testBit x.2).map Prod.fst

/-- The bytes of some values, each in its field's width. -/
def settingBytes (fields : List (SettingRow × Nat)) : List Byte :=
  fields.flatMap fun x => if x.1.width = 1 then u8 x.2 else u16 x.2

/-- The payload byte of the first of some fields that meets a test, the first of them at byte 4 (R176). -/
def settingIndex (test : SettingRow × Nat → Bool) : Nat → List (SettingRow × Nat) → Option Nat
  | _, [] => none
  | i, x :: xs => if test x then some i else settingIndex test (i + x.1.width) xs

/-- An offer as the five values of a SURVEY_SET give it, its numbers held within their bounds (7.1, 10.7). -/
def offerHeld (channels pre post decimation rate : Nat) : Offer where
  channels := ⟨channels.testBit 0, channels.testBit 1, channels.testBit 2⟩
  pre := min 8 pre
  post := min 24 (max 1 post)
  decimation := decimation
  rate := min 60 (max 1 rate)

/-- The 76 bytes of a survey's header as SURVEY_START writes it, and zeros to the block's end: state RUNNING, next event
number 1, resume count 0, last-safe seconds 0, and the settings in force, an offer never set as five zeros (12.2,
R177). -/
def startHeader (number id seconds : Nat) (g : Settings) : List Byte :=
  let flag := fun b : Bool => u8 (if b then 1 else 0)
  let w := g.wants
  u16 number ++ u16 id ++ u32 seconds ++ [0] ++ [0, 1] ++ [0, 0] ++ [0, 0, 0, 0]
    ++ (u8 g.nominal ++ u16 g.declared)
    ++ (u16 g.threshold ++ u8 g.hysteresis ++ u16 g.interruption ++ u8 g.settle)
    ++ (u8 g.preCycles ++ u8 g.postCycles ++ u8 g.endCycles)
    ++ (u8 g.minutes ++ flag g.ring ++ u16 g.holdUp)
    ++ (u8 g.offerCount ++ g.offers.toList.flatMap fun o => o.elim (List.replicate 5 0) fun o =>
      u8 ((if o.channels.v1 then 1 else 0) + (if o.channels.v2 then 2 else 0) + (if o.channels.v3 then 4 else 0))
        ++ u8 o.pre ++ u8 o.post ++ u8 o.decimation ++ u8 o.rate)
    ++ (flag g.seek ++ flag g.serve ++ u8 w.channels ++ u8 w.pre ++ u8 w.post ++ u8 w.rate ++ flag w.decimation2)
    ++ (u8 g.bankA ++ u8 g.bankB ++ u8 g.cellWidth ++ flag g.colour ++ u8 g.energy)
    ++ List.replicate 52 0

/-! ### The open-offer list (7.1, 7.2) -/

/-- The blocks an offer costs: one for each channel and cycle, and half as many, rounded up, at decimation 2 (R114). -/
def offerCost (o : Offer) : Nat :=
  let channels := (if o.channels.v1 then 1 else 0) + (if o.channels.v2 then 1 else 0) + (if o.channels.v3 then 1 else 0)
  channels * if o.decimation = 1 then o.pre + o.post else (o.pre + o.post + 1) / 2

/-- An OFFERS for a list (12.1). -/
def offersFrame (id revision : Nat) (list : List ListedOffer) : TxFrame :=
  newFrame .offers none (u16 id ++ u16 revision ++ u8 list.length ++ list.flatMap fun l =>
    u8 l.position ++ u8 ((if l.offer.channels.v1 then 1 else 0) + (if l.offer.channels.v2 then 2 else 0)
      + (if l.offer.channels.v3 then 4 else 0)) ++ u8 l.offer.pre ++ u8 l.offer.post ++ u8 l.offer.decimation
      ++ u8 l.offer.rate)

/-! ### The checks of requests -/

/-- The store has no block for a record of one block and no record to shed for it, or no id is left (R84 to R87). -/
def noBlockRoom (s : State) : Bool :=
  let sheddable := fun e : Entry => !e.open_ && !e.hold && (e.kind == .companion
    || (e.kind == .waveformStart || e.kind == .waveformEnd) && e.parent.elim 0 (pinCount s) == 0
    || e.kind == .interval && s.survey.settings.ring)
  decide (65536 ≤ s.store.idCounter)
    || s.store.freeCount == 0 && s.store.dir.all fun e => !sheddable e || e.chain.isEmpty

/-- The checks of a SURVEY_START in their order, each with whether it fails, and the reason and the index it is refused
with (R177, 12.1). -/
def startChecks (bs : List Byte) (s : State) : List (Bool × Reason × Nat) :=
  let g := s.survey.settings
  let keep := byteAt bs 8 == 1
  [ (u16At bs 2 == 0, .badField, 2),
    (decide (3155760000 ≤ u32At bs 4), .badField, 4),
    (decide (1 < byteAt bs 8), .badField, 8),
    (s.survey.running, .running, 0),
    (decide (g.threshold ≤ g.interruption), .badField, 0),
    (decide (40 < g.preCycles + g.postCycles), .badField, 0),
    (keep && (decide (60000 < s.store.idCounter) || decide (65535 ≤ s.retained.lastSurvey)), .needsErase, 0),
    (s.supply.state == .safe, .safe, 0),
    (keep && noBlockRoom s, .storeFull, 0) ]

/-- The checks of a CONTEXT_OPEN before its allocation, in their order, each with whether it fails (R104). -/
def contextChecks (s : State) : List (Bool × Reason) :=
  [ (!s.survey.running, .notRunning),
    (s.supply.state == .safe, .safe),
    (decide (6 ≤ s.notes.stack.length), .stackFull),
    (decide (255 ≤ s.notes.contexts), .countFull) ]

/-- The event a NOTE_ADD names: none for the choice NONE, the latest event for LATEST, the running survey's EVENT record
of that number for EVENT (R108, 12.1). -/
def noteEvent (bs : List Byte) (s : State) : Option LatestEvent :=
  if byteAt bs 2 = 1 then s.detector.latest
  else if byteAt bs 2 = 2 then
    ((recordsOf s .event s.survey.number).find? fun e => u16At (recordBytes s e) 1 == u16At bs 3).map
      fun e => { number := u16At bs 3, recId := e.id }
  else none

/-- The checks of a NOTE_ADD before its allocation, in their order, each with whether it fails, and the reason and the
index it is refused with (R92, R106, R109). -/
def noteChecks (bs : List Byte) (s : State) : List (Bool × Reason × Nat) :=
  let event := noteEvent bs s
  let bytes := (event.bind fun ev => findEntry s ev.recId).elim [] (recordBytes s)
  [ (!s.survey.running, .notRunning, 0),
    (s.supply.state == .safe, .safe, 0),
    (decide (2 < byteAt bs 2), .badField, 2),
    (byteAt bs 2 == 2 && u16At bs 3 == 0, .badField, 3),
    (byteAt bs 5 == 0, .badField, 5),
    (byteAt bs 2 != 0 && event.isNone, .noEvent, 0),
    (event.any fun ev => decide (15 ≤ pinCount s ev.recId), .pinFull, 0),
    (byteAt bytes 28 == 3 || byteAt bytes 29 == 3, .shedWaveform, 0) ]

/-- The pin count of an event's directory entry is one higher, as a note's allocation finds it (R109). -/
def withPinRaised (ev : LatestEvent) (s : State) : State :=
  { s with store := { s.store with dir := s.store.dir.map fun e =>
      if e.id = ev.recId then { e with pins := some (pinCount s ev.recId + 1) } else e } }

/-- The checks of a REPORT_REQUEST in their order, each with whether it fails, and the reason and the index it is
refused with (R131, R132, 12.1). -/
def reportChecks (bs : List Byte) (s : State) : List (Bool × Reason × Nat) :=
  let survey := u16At bs 5
  let header := (s.store.dir.filter fun e => e.kind == .header && (survey == 0 || e.survey == survey)).getLast?
  let detail := byteAt bs 2 == 3
  let fitted := fun st : Station => if st = ownStation s then s.pins.straps.prn
    else (peer s st).present && (peer s st).printer
  let loaded := fun st : Station => fitted st && if st = ownStation s then s.pins.paper else (peer s st).paper
  let recorders := allStations.filter fun st => decide (st.val < 8)
  let chosen := if byteAt bs 17 == 255 then recorders.any loaded
    else recorders.any fun st => st.val == byteAt bs 17 && fitted st
  [ (byteAt bs 2 == 0 || decide (5 < byteAt bs 2), .badField, 2),
    (detail && u16At bs 3 == 0, .badField, 3),
    (decide (u32At bs 11 < u32At bs 7), .badField, 7),
    (decide (1 < byteAt bs 15), .badField, 15),
    (decide (2 < byteAt bs 16), .badField, 16),
    (decide (7 < byteAt bs 17) && byteAt bs 17 != 255, .badField, 17),
    (s.composer.state != .idle, .busy, 0),
    (header.isNone, .noSurvey, 0),
    (detail && header.all fun h => (recordsOf s .event h.survey).all fun e =>
        u16At (recordBytes s e) 1 != u16At bs 3, .noEvent, 0),
    (!chosen, .noPrinter, 0) ]

/-! ### The lines of a report (R136, R140) -/

/-- A composed line is handed over: a PRINT_LINE to the printer with the job number, the next line number, its flags and
its cells without the trailing blank ones, on one credit; the line with the last flag begins FINISHING (R136, R137,
R142; 12.1). -/
def lineHanded (l : ReportLine) (s : State) : State :=
  let number := min 65535 (s.composer.line + 1)
  let cells := trimLine l.cells
  { sentTo s.composer.printer .printLine (u16 s.composer.job ++ u16 number
      ++ u8 ((if l.last then 1 else 0) + (if l.double then 2 else 0))
      ++ u8 cells.length ++ cells.flatMap LineCell.bytes) s with
    composer := { s.composer with
      line := number, credit := s.composer.credit - 1
      state := if l.last then .finishing else s.composer.state
      finishingTimer := if l.last then (if s.composer.paused then none else some (s.now + 60000000))
        else s.composer.finishingTimer } }

/-- The state in which the front line job is composed: the job has left the cursor (R140). -/
def jobTaken (s : State) : State := { s with composer := { s.composer with
  cursor := { s.composer.cursor with jobs := s.composer.cursor.jobs.tail } } }

/-- Some lines are what the composer makes of its cursor, one line job after another: each job is composed in the state
the one before it has left, the holds no later line needs are cleared, and its line, if it gives one, is handed over
(R136, R140). -/
inductive LinesComposed : State → List ReportLine → State → Prop
  | none (s : State) : LinesComposed s [] s
  | silent (s t : State) (j : LineJob) (lines : List ReportLine) : s.composer.cursor.jobs.head? = some j →
      (composeJob j (jobTaken s)).2 = .none →
      LinesComposed (clearPassed (composeJob j (jobTaken s)).1) lines t → LinesComposed s lines t
  | line (s t : State) (j : LineJob) (l : ReportLine) (lines : List ReportLine) :
      s.composer.cursor.jobs.head? = some j → (composeJob j (jobTaken s)).2 = some l →
      LinesComposed (lineHanded l (clearPassed (composeJob j (jobTaken s)).1)) lines t →
      LinesComposed s (l :: lines) t

/-! ### Holds -/

/-- The directory differs in hold flags alone, and in those of the records named (R91). -/
def HoldsChanged (ids : List Nat) (s t : State) : Prop :=
  t.store.dir.length = s.store.dir.length
  ∧ ∀ (k : Nat) (e : Entry), s.store.dir[k]? = some e →
      ∃ e', t.store.dir[k]? = some e' ∧ e' = { e with hold := e'.hold } ∧ (e.id ∉ ids → e' = e)

/-! ### The laws of the state -/

/-- The store's memory is in canonical form. -/
def MemoryForm (s : State) : Prop := Memory.wf s.store.mem = true

/-- The Record Store's law: the free count is that of the free list; no block is in two places, on the free list or in a
record; every block is one of the 4096; record ids rise and are below the id counter (R80 to R84). -/
def StoreLaw (s : State) : Prop :=
  s.store.freeCount = s.store.free.length
  ∧ (s.store.free ++ s.store.dir.flatMap Entry.chain).Nodup
  ∧ (∀ b ∈ s.store.free ++ s.store.dir.flatMap Entry.chain, b < 4096)
  ∧ (s.store.dir.map Entry.id).Pairwise (· < ·)
  ∧ (∀ e ∈ s.store.dir, 1 ≤ e.id ∧ e.id < s.store.idCounter)
  ∧ 1 ≤ s.store.idCounter ∧ s.store.idCounter ≤ 65536

/-- Waveforms alone carry a descriptor (R46, R82). -/
def DescriptorLaw (s : State) : Prop := ∀ e ∈ s.store.dir, e.desc ≠ none → e.kind.isWave = true

/-- Every one of the 4096 blocks is free or belongs to a record (R80). -/
def StoreTotal (s : State) : Prop := ∀ b, b < 4096 → b ∈ s.store.free ++ s.store.dir.flatMap Entry.chain

/-- In STANDBY no event, capture or interval is open, and no first cycle is awaited (R18, R20, R58, R66, R178). -/
def StandbyLaw (s : State) : Prop :=
  s.survey.running = false →
    s.detector.state = .held ∧ s.detector.event = .none ∧ (∀ i, slot s i = none) ∧ s.harmonic.interval = none
    ∧ s.sampling.firstCyclePending = false

/-- An EVENT record of the directory. -/
def IsEvent (s : State) (id : Nat) : Prop := ∃ e ∈ s.store.dir, e.id = id ∧ e.kind = .event

/-- Every parent that a record, its descriptor or an open slot names is an EVENT record of the directory, and so is the
event in progress; a record of a kind of fixed size holds its blocks, 3 for an INTERVAL and 1 for the others (R44, R46,
R82, R83, R89). -/
def ParentLaw (s : State) : Prop :=
  (∀ e ∈ s.store.dir, (∀ p, e.parent = some p → IsEvent s p)
    ∧ (∀ d, e.desc = some d → ∀ p, d.parent = some p → IsEvent s p.recId)
    ∧ (e.kind = .interval → e.chain.length = 3)
    ∧ (e.kind = .header ∨ e.kind = .event ∨ e.kind = .note ∨ e.kind = .context → e.chain.length = 1))
  ∧ (∀ i x, slot s i = some x → ∀ p, x.parent = some p → IsEvent s p.recId)
  ∧ ∀ w, s.detector.event = .recorded w → IsEvent s w.recId

/-- The law of the open slots: no two of them have one record or one parent event, and no slot's record is a parent;
each slot's record is an OPEN waveform of the directory, a companion has no parent, and an event whose end capture has
not been asked for has no OWN_END slot (R44, R49, R51, R53, R57). -/
def SlotLaw (s : State) : Prop :=
  SlotsApart s
  ∧ (∀ i x, slot s i = some x → (∃ e ∈ s.store.dir, e.id = x.recId ∧ e.kind.isWave = true ∧ e.open_ = true)
      ∧ (x.kind = .companion → x.parent = none))
  ∧ ∀ w, s.detector.event = .recorded w → s.detector.endAsked = false → ∀ i x, slot s i = some x → x.kind = .ownEnd →
      x.parent.map LatestEvent.recId ≠ some w.recId

/-- The transmit queue's law: at most 16 frames, in priority order, at most one in transmission, bits on the line
exactly while one is; empty once LINK_SILENT is set (R167, R171, R172). -/
def QueueLaw (s : State) : Prop :=
  s.link.queue.length ≤ 16
  ∧ s.link.queue.Pairwise (fun a b => a.kind.priority ≤ b.kind.priority)
  ∧ (s.link.queue.filter TxFrame.inTx).length ≤ 1
  ∧ (isSending s.link = true ↔ s.link.txBits ≠ [])
  ∧ (s.link.silent = true → s.link.queue = [])

/-- A code a set can hold (00, Numbers). -/
def isCode (x : Int) : Prop := -32767 ≤ x ∧ x ≤ 32767

/-- Every code of a set is one a set can hold. -/
def codesHeld (t : Tri Int) : Prop := isCode t.v1 ∧ isCode t.v2 ∧ isCode t.v3

/-- A period the tracker can hold (R5, R10). -/
def isPeriod (p : Nat) : Prop := 14493 ≤ p ∧ p ≤ 23529

/-- The sampling law: each strobe stands where R5 places it; the cycle being assembled holds one set for each strobe
answered (R4); the periods, the counts, the history and the ring stay within their bounds (R1, R10, R11, R13, R42). -/
def ScheduleLaw (s : State) : Prop :=
  s.sampling.position < 64
  ∧ s.sampling.strobeTick = s.sampling.cycleStart + s.sampling.position * s.sampling.cyclePeriod / 64
  ∧ isPeriod s.sampling.period ∧ isPeriod s.sampling.cyclePeriod
  ∧ s.sampling.freeRunCount ≤ 4
  ∧ (s.sampling.outstanding = true → s.sampling.assembled.length = s.sampling.position)
  ∧ (s.sampling.outstanding = false → s.sampling.position < 63 →
      s.sampling.assembled.length = s.sampling.position + 1)
  ∧ (s.sampling.outstanding = false → s.sampling.position = 63 → s.sampling.assembled = [])
  ∧ s.sampling.history.length ≤ 64
  ∧ (∀ x ∈ s.sampling.assembled ++ s.sampling.history, codesHeld x.codes)
  ∧ (∀ c, s.sampling.heldSet = some c → codesHeld c)
  ∧ s.capture.ring.length ≤ 16
  ∧ (∀ c ∈ s.capture.ring, c.sets.length = 64)
  ∧ RingBefore s (if s.sampling.outstanding = false ∧ s.sampling.position = 63 then s.sampling.cycle + 1
      else s.sampling.cycle)

/-- The context stack's law: at most 6 contexts, their numbers rising from the outermost in, none above the contexts
made, at most 255 of those; in STANDBY it is empty (R102, R104, R105, R112). -/
def NotesLaw (s : State) : Prop :=
  s.notes.stack.length ≤ 6
  ∧ s.notes.stack.Pairwise (· < ·)
  ∧ (∀ n ∈ s.notes.stack, 1 ≤ n ∧ n ≤ s.notes.contexts)
  ∧ s.notes.contexts ≤ 255
  ∧ (s.survey.running = false → s.notes.stack = [])

/-- The open-offer list is the one to be formed now, and every agreement this station provides rests on an offer of it
(R115, R126). -/
def OffersLaw (s : State) : Prop :=
  s.agreement.list = openOffers s
  ∧ ∀ (st : Station) (p : Provider), (peer s st).provider = some p → p.position ∈ positions s.agreement.list

/-- The Print Unit's law: one job a recorder station, only the head job running; lines and credit never above the 16
lines of the buffer; ready, or settling, only with a printer, paper and the supply NORMAL (R148, R149, R152, R158,
R159). -/
def PrintLaw (s : State) : Prop :=
  (s.printer.queue.map Job.origin).Nodup
  ∧ (∀ j ∈ s.printer.queue, j.origin.val < 8)
  ∧ (∀ j ∈ s.printer.queue.tail, j.state = .queued)
  ∧ (runningJob s = none → s.printer.buffer = [])
  ∧ (∀ j, runningJob s = some j → j.credit + s.printer.buffer.length ≤ 16)
  ∧ (s.powered = true → (s.printer.ready = true ∨ s.printer.settleTimer.isSome = true) → mayPrint s = true)

/-- A report in progress still has its closing line to compose, until it has been sent (R136, R142). -/
def ReportLaw (s : State) : Prop :=
  s.composer.state ≠ .idle → s.composer.state ≠ .finishing → LineJob.closing ∈ s.composer.cursor.jobs

/-- The Supply Monitor's law: the hold-up timer runs exactly in HOLDUP; in a part that is not stopped, the store marker
reads CONSISTENT in STANDBY and WRITING while a survey runs and the supply is not SAFE (a stop within a change can leave
it otherwise, R98 and R182); in SAFE no event or interval is open, and no capture but a companion, which a notice taken
within the SAFE procedure can have opened (R54, R98, R180 to R183, log 6). -/
def SupplyLaw (s : State) : Prop :=
  (s.supply.state = .holdup ↔ s.supply.holdUpTimer.isSome = true)
  ∧ (s.powered = true → (s.survey.running = false → s.store.writing = false)
      ∧ (s.survey.running = true → s.supply.state ≠ .safe → s.store.writing = true))
  ∧ (s.supply.state = .safe →
      s.detector.state = .held ∧ s.detector.event = .none ∧ s.harmonic.interval = none
      ∧ ∀ i x, slot s i = some x → x.kind = .companion)

/-- What SAFE is entered with when no notice and no survey start arrives within the SAFE procedure: no capture is open,
and in a part that is not stopped the marker reads CONSISTENT (R59, R98, R182). -/
def SafeLaw (s : State) : Prop :=
  s.supply.state = .safe → (∀ i, slot s i = none) ∧ (s.powered = true → s.store.writing = false)

end Sys2Proof.Machine
end

