-- ==== Sys2Proof/Certificates/Slice0/Obligations.lean ====
section
/-! DEFINITION. The statements for the provers. -/

open Sys2Proof Sys2Proof.Machine

/-! ### The step -/

/-- The step carries out the command at the front of the queue with the queue's rest; with none waiting one base tick
passes, which is the model's choice (log 1). -/
def Obligations.StepRunsFrontCommand : Prop :=
  (∀ (s : State) (c : Instr) (rest : List Instr),
    s.pending = c :: rest → step s = exec c { s with pending := rest })
  ∧ ∀ s : State, s.pending = [] → step s = .next { s with now := s.now + 1 }

/-- No command ends in a fault or a refusal, whatever the state, and none touches the queue of waiting commands. -/
def Obligations.EveryCommandCompletes : Prop :=
  ∀ (i : Instr) (s : State), ∃ t, exec i s = .next t ∧ t.pending = s.pending

/-- SUPPLY_CUT and RESET_PIN_ASSERT stop the part where it stands, both in the same way: between two changes a stop
changes nothing else, and so does one within the SAFE procedure where no hold-up timer runs; one that falls within a
change leaves of the part what the change has done so far, and touches the blocks of such a change alone, unless frames
were taken on the way (SupplyPassesThroughItsStates); the level pins and the supply's own state stand in any case. A
stopped part acts on nothing until a restart, and only its two level pins follow the outside (R60, R184; log 5). That a
stop falls within a change at the places of log 6 alone is the model's choice. -/
def Obligations.StoppedPartActsOnNothing : Prop :=
  (∀ s : State, exec (.supplyCut .between) s = .next { s with powered := false }
    ∧ ∀ made during, s.supply.holdUpTimer = none →
      exec (.supplyCut (.inSafeProcedure made during)) s = .next { s with powered := false })
  ∧ (∀ (s : State) (point : StopPoint), exec (.resetPinAssert point) s = exec (.supplyCut point) s
    ∧ ∃ t, exec (.supplyCut point) s = .next t
      ∧ t.powered = false ∧ t.pins = s.pins ∧ t.supply = s.supply
      ∧ ((∀ made x during, point ≠ .inSafeProcedure made (x :: during)) →
        t = { s with powered := false, now := t.now, detector := t.detector, capture := t.capture
                     harmonic := t.harmonic, store := t.store, notes := t.notes, agreement := t.agreement
                     peers := t.peers, link := t.link }))
  ∧ ∀ (i : Instr) (s : State), s.powered = false →
    match i with
    | .restart _ _ _ => True
    | .paperOut => exec i s = .next { s with pins := { s.pins with paper := false } }
    | .paperPresent => exec i s = .next { s with pins := { s.pins with paper := true } }
    | .supplyWarnAssert => exec i s = .next { s with pins := { s.pins with supplyWarn := true } }
    | .supplyWarnRelease => exec i s = .next { s with pins := { s.pins with supplyWarn := false } }
    | _ => exec i s = .next s

/-! ### Restart -/

/-- The state after reset meets every law the statements below say a step keeps. -/
def Obligations.ResetMeetsEveryLaw : Prop :=
  MemoryForm State.reset ∧ StoreLaw State.reset ∧ DescriptorLaw State.reset ∧ QueueLaw State.reset
  ∧ ScheduleLaw State.reset ∧ NotesLaw State.reset ∧ OffersLaw State.reset ∧ PrintLaw State.reset
  ∧ SupplyLaw State.reset ∧ ReportLaw State.reset ∧ StoreTotal State.reset ∧ StandbyLaw State.reset
  ∧ ParentLaw State.reset ∧ SlotsApart State.reset ∧ SlotLaw State.reset ∧ SafeLaw State.reset

/-- RESTART with the backup lost is a restart of cause COLD: the store is cleared, the retained seconds counter and the
last survey number are 0, the settings are the defaults, every block is in its restart state, strobe 0 of cycle 0 is
driven at once, and the link's and the printer's counters are 0, and the first PRESENCE is handed over (R19, R100, R129,
R146, R164, R173, R179, R185). Five clauses are the model's choice: strobe 0 falls within RESTART (log 11), the settle
timer starts within RESTART (log 41), a working item of no stated restart value has that of log 3, the composer's
printer paused that of log 75, and every byte of the cleared store reads 0 (log 8). -/
def Obligations.ColdRestartClearsThePart : Prop :=
  ∀ (s : State) (source : RestartSource) (straps : Straps), ∃ t,
    exec (.restart source true straps) s = .next t
    ∧ t.powered = true ∧ t.pending = s.pending ∧ t.now = s.now ∧ t.pins = { s.pins with straps := straps }
    ∧ t.store.mem = [] ∧ t.store.dir = [] ∧ t.store.free = List.range' 0 4096 ∧ t.store.freeCount = 4096
    ∧ t.store.idCounter = 1 ∧ t.store.writing = false ∧ t.store.cursors = []
    ∧ t.store.shed = 0 ∧ t.store.refused = 0
    ∧ retainedSeconds t = 0 ∧ t.retained.lastSurvey = 0 ∧ t.retained.cycle = 0 ∧ t.retained.clock = 0
    ∧ t.survey = { running := false, number := 0, id := 0, startSeconds := 0, settings := Settings.default }
    ∧ t.clock = .holding 0 ∧ t.sampling = Sampling.restarted 20000 s.now 0
    ∧ t.detector = Detector.restarted ∧ t.capture = Capture.restarted ∧ t.harmonic = Harmonic.restarted
    ∧ t.notes = Notes.restarted ∧ t.agreement = Agreement.restarted
    ∧ t.peers = Vector.replicate 16 Peer.empty ∧ t.composer = Composer.restarted
    ∧ t.printer = {
        queue := [], buffer := [], head := .idle, row := none, motorSteps := 0, ready := false
        settleTimer := if straps.prn && s.pins.paper && !s.pins.supplyWarn then some (s.now + 500000) else none
        lineTimer := none, linesDiscarded := 0, linesMissing := 0, cellsDropped := 0, jobsPrinted := 0
        jobsEnded := 0 }
    ∧ t.supply = (if s.pins.supplyWarn then
        { state := .holdup, holdUpTimer := some (s.now + 400000), cause := .cold }
      else { state := .normal, holdUpTimer := none, cause := .cold })
    ∧ t.link = {
        queue := [newFrame .presence none
          ([0, 0, 0, 16, 0, 0, 0]
            ++ u8 ((if straps.prn then 1 else 0) + (if straps.prn && s.pins.paper then 2 else 0))
            ++ [if s.pins.supplyWarn then 1 else 0, 0])]
        txBits := [], waitFree := none, sent := 0, received := 0, checkFailures := 0, badLengths := 0
        unknownKinds := 0, bitErrors := 0, arbitrationLosses := 0, dropped := 0, silent := false
        presenceTimer := s.now + 1000000, loopback := [] }

/-- RESTART from the reset pin repairs the store and leaves the survey in STANDBY with default settings: no hold, no
OPEN event, the free list the blocks of no record in ascending order, the marker CONSISTENT, no cursor; records may go
but none is made, and the id counter, the last survey number and the retained seconds stand. Each OPEN capture is cut to
its written cycles with CUT_SHORT, or released whole, and its event reads PARTIAL or NONE; each OPEN event is closed
with CUT_SHORT, its end ms its start ms, its worst channel formed; every other record stands. The last survey header, if
its state byte reads RUNNING, reads ENDED_BY_RESET, its other bytes standing; the premises are the laws of
StoreLawIsKept (R60, R99, R100, R179, R185). Two clauses are the model's choice: strobe 0 falls within RESTART (log 11),
and a working item of no stated restart value, the latest window number, has that of log 3. -/
def Obligations.PinResetRepairsTheStore : Prop :=
  ∀ (s : State) (straps : Straps), ∃ t,
    exec (.restart .resetPin false straps) s = .next t
    ∧ t.powered = true ∧ t.pins = { s.pins with straps := straps } ∧ t.supply.cause = .pinReset
    ∧ t.survey.running = false ∧ t.survey.settings = Settings.default ∧ t.clock = .holding 0
    ∧ t.store.writing = false ∧ t.store.cursors = [] ∧ t.store.shed = 0 ∧ t.store.refused = 0
    ∧ t.store.idCounter = s.store.idCounter ∧ t.retained.lastSurvey = s.retained.lastSurvey
    ∧ retainedSeconds t = retainedSeconds s
    ∧ (∀ e ∈ t.store.dir, e.hold = false ∧ (e.kind = .event → e.open_ = false))
    ∧ (t.store.dir.map Entry.id).Sublist (s.store.dir.map Entry.id)
    ∧ t.store.free = (List.range' 0 4096).filter (fun b => !(t.store.dir.flatMap Entry.chain).contains b)
    ∧ t.store.freeCount = t.store.free.length
    ∧ t.sampling = Sampling.restarted 20000 s.now 0
    ∧ t.detector.state = .held ∧ t.detector.event = .none ∧ (∀ i, slot t i = none) ∧ t.harmonic.interval = none
    ∧ (StoreLaw s → DescriptorLaw s → ParentLaw s → StoreRepaired s t ∧ ∀ h, lastHeader s = some h →
        HeaderTakes s t h (if byteAt (recordBytes s h) 9 = 0 then [(9, [2])] else []))

/-- RESTART at the rise of the supply. With the last header reading RUNNING it resumes the survey: numbers and settings
from the header, the clock from the retained seconds or, when that would go back, from a whole second at least 25 ms
after the time copied last, the cycles numbered on, the detector HELD with the resume mark, the marker WRITING and a
PARTIAL interval open; the header's resume count is raised by 1, and the detector's next event number and latest event
and the Note Unit's two counters are restored from the survey's records. The open-offer list is formed, its revision 0,
and raised to 1 when the list is not empty, every peer entry is empty, and an OFFERS is handed over, its timers started,
before the first PRESENCE. With the last header not RUNNING, or none, the survey stays in STANDBY with the header's
numbers and default settings, the list empty under revision 0, and no OFFERS is sent. In both cases a store found
CONSISTENT is kept but for its holds, and one found WRITING is repaired first: no hold, no OPEN event, the free list the
blocks of no record, each OPEN capture cut short or released, each OPEN event closed. The premises are the laws of
StoreLawIsKept (R19, R41, R78, R99, R100, R113, R115, R116, R129, R173, R179, R185, R186). Six clauses are the model's
reading: strobe 0 falls within RESTART, and with it the cycle's number, the clock and the interval (log 11), a working
item of no stated restart value has that of log 3, the retained seconds counter and the cycle number have no bound (log
71, log 76), a resume hands exactly one OFFERS over, and that before the first PRESENCE (log 43), and an offer of the
restored G5 whose channel set in the header is empty is one never set (log 26); that the resume count stays at 65535 is
the rule of counters (00, Numbers). -/
def Obligations.SupplyReturnResumesTheSurvey : Prop :=
  ∀ (s : State) (straps : Straps), StoreLaw s → DescriptorLaw s → ParentLaw s →
    let found := fun (t : State) =>
      t.store.idCounter = s.store.idCounter ∧ t.store.cursors = [] ∧ (∀ e ∈ t.store.dir, e.hold = false)
      ∧ (s.store.writing = false →
          t.store.free = s.store.free ∧ t.store.dir = s.store.dir.map fun e => { e with hold := false })
      ∧ (s.store.writing = true → (∀ e ∈ t.store.dir, e.kind = .event → e.open_ = false)
          ∧ (t.store.dir.map Entry.id).Sublist (s.store.dir.map Entry.id)
          ∧ t.store.free = (List.range' 0 4096).filter (fun b => !(t.store.dir.flatMap Entry.chain).contains b)
          ∧ t.store.freeCount = t.store.free.length
          ∧ StoreRepaired s t)
    let presence := fun (t : State) => newFrame .presence none
      ([if t.survey.running then 1 else 0] ++ u16 (if t.survey.running then t.survey.id else 0)
        ++ u16 t.store.freeCount ++ u16 t.agreement.revision
        ++ u8 ((if straps.prn then 1 else 0) + (if straps.prn && s.pins.paper then 2 else 0))
        ++ u8 (if s.pins.supplyWarn then 1 else 0) ++ [1])
    (∀ h, lastHeader s = some h → byteAt (recordBytes s h) 9 = 0 →
      let survey := u16At (recordBytes s h) 1
      let highest := fun (kind : RecordKind) (read : List Byte → Nat) =>
        ((recordsOf s kind survey).map fun e => read (recordBytes s e)).foldl max 0
      let live := 1000 * (retainedSeconds s - u32At (recordBytes s h) 5)
      ∃ t i, exec (.restart .supplyRise false straps) s = .next t
        ∧ t.powered = true ∧ t.supply.cause = .supplyReturn
        ∧ t.survey = {
            running := true, number := survey, id := u16At (recordBytes s h) 3
            startSeconds := u32At (recordBytes s h) 5, settings := settingsOf (recordBytes s h) }
        ∧ t.clock = .counting (min 4294967295
            (if live < s.retained.clock + 25 then 1000 * ((s.retained.clock + 25 + 999) / 1000) else live)) s.now
        ∧ t.sampling.cycle = s.retained.cycle + 1 ∧ t.retained.cycle = s.retained.cycle + 1
        ∧ t.sampling.position = 0 ∧ t.sampling.outstanding = true ∧ t.sampling.freeRunCount = 4
        ∧ t.detector.state = .held ∧ t.detector.resumeMark = true ∧ t.detector.event = .none
        ∧ t.detector.settleCount = 0 ∧ t.detector.endAsked = false ∧ t.detector.unrecorded = 0
        ∧ t.detector.nextEvent = max (highest .event (fun bs => u16At bs 1) + 1) (u16At (recordBytes s h) 10)
        ∧ t.detector.latest = (findEvent s survey (highest .event fun bs => u16At bs 1)).map
            (fun e => { number := highest .event fun bs => u16At bs 1, recId := e.id })
        ∧ t.notes = { stack := [], contexts := highest .context fun bs => byteAt bs 1
                      nextNote := highest .note (fun bs => u16At bs 1) + 1 }
        ∧ t.store.writing = true ∧ found t
        ∧ (s.store.writing = false → ∀ a, a ≠ 128 * h.firstBlock + 11 → a ≠ 128 * h.firstBlock + 12 →
            Memory.readByte t.store.mem a = Memory.readByte s.store.mem a)
        ∧ t.harmonic.interval = some i ∧ i.partial_ = true ∧ i.startMs = surveyMs t
        ∧ (let revision := if openOffers t = [] then 0 else 1
          t.agreement = { list := openOffers t, revision := revision, pendingOffers := false
                          sendLimit := some (s.now + 1000000), refresh := some (s.now + 10000000) }
          ∧ t.peers = Vector.replicate 16 Peer.empty
          ∧ t.link = { Link.restarted s.now with
            queue := [offersFrame t.survey.id revision (openOffers t), presence t] })
        ∧ HeaderTakes s t h [(12, u16 (min 65535 (u16At (recordBytes s h) 12 + 1)))])
    ∧ ((∀ h, lastHeader s = some h → byteAt (recordBytes s h) 9 ≠ 0) →
      let bs := (lastHeader s).elim [] (recordBytes s)
      ∃ t, exec (.restart .supplyRise false straps) s = .next t
        ∧ t.powered = true ∧ t.supply.cause = .supplyReturn
        ∧ t.survey = { running := false, number := u16At bs 1, id := u16At bs 3, startSeconds := u32At bs 5
                       settings := Settings.default }
        ∧ t.clock = .holding 0 ∧ t.sampling = Sampling.restarted 20000 s.now 0 ∧ t.detector = Detector.restarted
        ∧ t.harmonic = Harmonic.restarted ∧ t.notes = Notes.restarted ∧ (∀ i, slot t i = none)
        ∧ t.agreement = Agreement.restarted ∧ t.peers = Vector.replicate 16 Peer.empty
        ∧ t.link = { Link.restarted s.now with queue := [presence t] }
        ∧ t.store.writing = false ∧ found t
        ∧ (s.store.writing = false → t.store.mem = s.store.mem)
        ∧ ∀ h, lastHeader s = some h → HeaderTakes s t h [])

/-! ### Sampling, cycle tracking, windows -/

/-- SAMPLE_SET_ARRIVAL on an outstanding strobe: the set is taken with -32768 as -32767, held, placed in the cycle being
assembled and in the window history; the strobe schedule stands. Away from positions 31 and 63 nothing outside these
blocks changes, and with no reference nothing else within them; at 63 the cycle is handed on. After the end window of
that position the Capture Engine writes the cycle to each slot whose next cycle it is: a block or a half-block for each
channel, the descriptor and the slot counted on, the last cycle closing the record and freeing the slot; every other
slot stands, and no byte outside the records of the slots changes (R1, R4, R6, R45, R52, R53). -/
def Obligations.SampleSetIsTaken : Prop :=
  (∀ (s : State) (v1 v2 v3 : BitVec 16) (o : Bool), s.powered = true → s.sampling.outstanding = true →
    let codes : Tri Int := ⟨codeTaken v1, codeTaken v2, codeTaken v3⟩
    let x : SampleSet := { codes := codes, patched := false, overrange := o }
    ∃ t, exec (.sampleSetArrival v1 v2 v3 o) s = .next t
      ∧ t.sampling.outstanding = false ∧ t.sampling.heldSet = some codes
      ∧ t.sampling.history = (x :: s.sampling.history).take 64
      ∧ t.sampling.position = s.sampling.position ∧ t.sampling.strobeTick = s.sampling.strobeTick
      ∧ t.sampling.cycle = s.sampling.cycle ∧ t.sampling.cycleStart = s.sampling.cycleStart
      ∧ t.sampling.cyclePeriod = s.sampling.cyclePeriod
      ∧ t.sampling.patchedSets = s.sampling.patchedSets ∧ t.sampling.lateSets = s.sampling.lateSets
      ∧ t.now = s.now ∧ t.retained = s.retained ∧ t.clock = s.clock ∧ t.survey = s.survey ∧ t.supply = s.supply
      ∧ (s.sampling.position ≠ 63 → t.sampling.assembled = x :: s.sampling.assembled)
      ∧ (s.sampling.position = 63 → t.sampling.assembled = []
          ∧ t.capture.ring.getLast? = some
              { number := s.sampling.cycle, startTick := s.sampling.cycleStart, period := s.sampling.cyclePeriod
                sets := s.sampling.assembled.reverse ++ [x]
                patched := patchedCount s.sampling.assembled
                overrange := overrangeCount s.sampling.assembled + (if o then 1 else 0)
                valid := decide (patchedCount s.sampling.assembled ≤ 4) })
      ∧ (s.sampling.position ≠ 31 → s.sampling.position ≠ 63 → t = { s with sampling := t.sampling })
      ∧ (s.sampling.position ≠ 31 → s.sampling.position ≠ 63 → s.sampling.reference = none →
          t.sampling = { s.sampling with
            outstanding := false, heldSet := some codes, assembled := x :: s.sampling.assembled
            history := (x :: s.sampling.history).take 64 }))
  ∧ ∀ (s : State) (v1 v2 v3 : BitVec 16) (o : Bool), s.powered = true → s.sampling.outstanding = true →
    s.sampling.position = 63 → s.sampling.assembled.length = 63 →
    let x : SampleSet := { codes := ⟨codeTaken v1, codeTaken v2, codeTaken v3⟩, patched := false, overrange := o }
    let sets := s.sampling.assembled.reverse ++ [x]
    let u := evaluateWindow .end_ (placeSet x s)
    StoreLaw u →
    ∃ t, exec (.sampleSetArrival v1 v2 v3 o) s = .next t ∧ t.store.free = u.store.free
      ∧ (∀ a, (∀ i y, slot u i = some y → ∀ e, findEntry u y.recId = some e → ∀ b ∈ e.chain,
            a < 128 * b ∨ 128 * b + 128 ≤ a) →
          Memory.readByte t.store.mem a = Memory.readByte u.store.mem a)
      ∧ (∀ i, slot u i = none → slot t i = none)
      ∧ ∀ i y, slot u i = some y → ∀ e, findEntry u y.recId = some e → ∀ d, e.desc = some d →
        (∀ j z, slot u j = some z → j = i ∨ z.recId ≠ y.recId) →
        (y.first + y.written ≠ s.sampling.cycle → slot t i = some y ∧ findEntry t y.recId = some e)
        ∧ (y.first + y.written = s.sampling.cycle → y.written < y.total →
          e.chain.length = channelCount y.channels * regionBlocks y.decimation y.total →
          let fresh := y.decimation = 1 ∨ y.written % 2 = 0
          let ended := y.written + 1 = y.total
          slot t i = (if ended then none else some { y with
            written := y.written + 1
            reserved := y.reserved - if fresh then channelCount y.channels else 0 })
          ∧ findEntry t y.recId = some { e with
              open_ := if ended then false else e.open_
              desc := some { d with
                written := d.written + 1
                invalidWritten := d.invalidWritten + if 4 < patchedCount s.sampling.assembled then 1 else 0
                overrangeWritten := d.overrangeWritten
                  + if 0 < overrangeCount s.sampling.assembled ∨ o = true then 1 else 0 } }
          ∧ ∀ (r : Nat) (ch : Channel), (channelList y.channels)[r]? = some ch →
              let codes := sets.map fun z => z.codes.get ch
              let block := e.chain.getD (r * regionBlocks y.decimation y.total
                + if y.decimation = 1 then y.written else y.written / 2) 0
              (y.decimation = 1 → Memory.read t.store.mem (128 * block) 128 = codes.flatMap code16)
              ∧ (y.decimation ≠ 1 →
                Memory.read t.store.mem (128 * block + if y.written % 2 = 0 then 0 else 64) 64
                  = ((List.range 32).map fun k => codes.getD (2 * k) 0).flatMap code16))

/-- R2: a set that finds no strobe outstanding is discarded and counted, and an arrival and a strobe that come together
give each strobe exactly one set, taken or patched, in either order. -/
def Obligations.ArrivalAndStrobeTogether : Prop :=
  ∀ (s : State) (v1 v2 v3 : BitVec 16) (o : Bool), s.powered = true →
    let codes : Tri Int := ⟨codeTaken v1, codeTaken v2, codeTaken v3⟩
    (s.sampling.outstanding = false →
      exec (.sampleSetArrival v1 v2 v3 o) s = .next { s with
        sampling := { s.sampling with lateSets := min 65535 (s.sampling.lateSets + 1) } })
    ∧ (s.sampling.outstanding = true →
      (∃ t u, exec (.sampleSetArrival v1 v2 v3 o) s = .next t ∧ exec .strobeDue t = .next u
        ∧ t.sampling.outstanding = false ∧ t.sampling.heldSet = some codes
        ∧ t.sampling.history = ({ codes := codes, patched := false, overrange := o } :: s.sampling.history).take 64
        ∧ u.sampling.outstanding = true ∧ u.sampling.heldSet = some codes
        ∧ (s.sampling.firstCyclePending = false → u.sampling.history = t.sampling.history
            ∧ u.sampling.patchedSets = s.sampling.patchedSets ∧ u.sampling.lateSets = s.sampling.lateSets))
      ∧ ∃ t u, exec .strobeDue s = .next t ∧ exec (.sampleSetArrival v1 v2 v3 o) t = .next u
        ∧ t.sampling.outstanding = true ∧ t.sampling.heldSet = some (s.sampling.heldSet.getD ⟨0, 0, 0⟩)
        ∧ u.sampling.outstanding = false ∧ u.sampling.heldSet = some codes
        ∧ u.sampling.lateSets = t.sampling.lateSets ∧ u.sampling.patchedSets = t.sampling.patchedSets
        ∧ u.sampling.history =
            ({ codes := codes, patched := false, overrange := o } :: t.sampling.history).take 64
        ∧ (s.sampling.firstCyclePending = false → t.sampling.lateSets = s.sampling.lateSets
            ∧ t.sampling.patchedSets = min 65535 (s.sampling.patchedSets + 1)
            ∧ t.sampling.history =
                ({ codes := s.sampling.heldSet.getD ⟨0, 0, 0⟩, patched := true, overrange := false }
                  :: s.sampling.history).take 64))

/-- STROBE_DUE within a cycle: the strobe is driven at the tick of R5 and nothing else happens when the strobe before it
was answered; an unanswered one is patched first with the codes last held, the patched mark and no overrange mark, and
counted (R3, R5). That the clock jumps to the strobe's tick is the model's choice (log 2). -/
def Obligations.StrobeFallsWhereScheduled : Prop :=
  ∀ s : State, s.powered = true → s.sampling.position < 63 →
    let tick := s.sampling.cycleStart + (s.sampling.position + 1) * s.sampling.cyclePeriod / 64
    let x : SampleSet := { codes := s.sampling.heldSet.getD ⟨0, 0, 0⟩, patched := true, overrange := false }
    (s.sampling.outstanding = false →
      exec .strobeDue s = .next { s with
        now := max s.now tick
        sampling := { s.sampling with
          outstanding := true, position := s.sampling.position + 1, strobeTick := tick } })
    ∧ (s.sampling.outstanding = true →
      ∃ t, exec .strobeDue s = .next t
        ∧ t.now = max s.now tick ∧ t.sampling.outstanding = true
        ∧ t.sampling.position = s.sampling.position + 1 ∧ t.sampling.strobeTick = tick
        ∧ t.sampling.cycleStart = s.sampling.cycleStart ∧ t.sampling.cyclePeriod = s.sampling.cyclePeriod
        ∧ t.sampling.cycle = s.sampling.cycle ∧ t.retained = s.retained
        ∧ t.sampling.heldSet = some x.codes ∧ t.sampling.assembled = x :: s.sampling.assembled
        ∧ t.sampling.history = (x :: s.sampling.history).take 64
        ∧ t.sampling.patchedSets = min 65535 (s.sampling.patchedSets + 1)
        ∧ t.sampling.lateSets = s.sampling.lateSets
        ∧ (s.sampling.position ≠ 31 → t = { s with now := t.now, sampling := t.sampling }))

/-- STROBE_DUE after strobe 63. Unanswered, that strobe is first settled with a patched set, which ends its cycle and
hands it on, and the rest is as after an answered one. Answered: a cycle starts where R5 places it. Its period is P, or
the nominal one when four cycles in a row gave no accepted period; the number and the clock are copied into retained
memory. At the first cycle start of a survey the cycle is 0, the window history and the ring are empty, both set
counters are 0, the clock counts from 0, a notice still queued has no opening window any more, so that its age is 0, and
unless the supply is in SAFE the survey's first interval opens, with index 0, start ms 0 and PARTIAL; its end boundary
and its empty accumulators are those of IntervalEndsAtTheNextBoundary (R3, R5, R6, R11, R18, R26, R43, R65, R66). Three
clauses are the model's: its clock jumps to the strobe's tick, by choice (log 2), and an interval that a return from
SAFE opened before cycle 0 is kept, as it reads R66 (log 16); and the cycle number counts on without bound (log 76). -/
def Obligations.CycleStartsAtItsTick : Prop :=
  (∀ s : State, s.powered = true → s.sampling.position = 63 → s.sampling.outstanding = true →
    let x : SampleSet := { codes := s.sampling.heldSet.getD ⟨0, 0, 0⟩, patched := true, overrange := false }
    ∃ u, exec .strobeDue s = exec .strobeDue u ∧ u.powered = true
      ∧ u.sampling.outstanding = false ∧ u.sampling.position = 63 ∧ u.sampling.heldSet = some x.codes
      ∧ u.sampling.assembled = [] ∧ u.sampling.history = (x :: s.sampling.history).take 64
      ∧ u.sampling.patchedSets = min 65535 (s.sampling.patchedSets + 1) ∧ u.sampling.lateSets = s.sampling.lateSets
      ∧ u.sampling.cycle = s.sampling.cycle ∧ u.sampling.cycleStart = s.sampling.cycleStart
      ∧ u.sampling.cyclePeriod = s.sampling.cyclePeriod ∧ u.sampling.strobeTick = s.sampling.strobeTick
      ∧ u.sampling.firstCyclePending = s.sampling.firstCyclePending
      ∧ u.now = max s.now (s.sampling.cycleStart + s.sampling.cyclePeriod)
      ∧ u.capture.ring.getLast? = some
          { number := s.sampling.cycle, startTick := s.sampling.cycleStart, period := s.sampling.cyclePeriod
            sets := s.sampling.assembled.reverse ++ [x]
            patched := patchedCount s.sampling.assembled + 1
            overrange := overrangeCount s.sampling.assembled
            valid := decide (patchedCount s.sampling.assembled + 1 ≤ 4) }
      ∧ u.retained = s.retained ∧ u.clock = s.clock ∧ u.survey = s.survey ∧ u.supply = s.supply ∧ u.pins = s.pins
      ∧ u.notes = s.notes ∧ u.composer = s.composer ∧ u.printer = s.printer)
  ∧ ∀ s : State, s.powered = true → s.sampling.position = 63 → s.sampling.outstanding = false →
    let tick := s.sampling.cycleStart + s.sampling.cyclePeriod
    let count := if s.sampling.accepted then s.sampling.freeRunCount else min 4 (s.sampling.freeRunCount + 1)
    let period := if count = 4 then (if s.survey.settings.nominal = 60 then 16667 else 20000) else s.sampling.period
    ∃ t, exec .strobeDue s = .next t
      ∧ t.now = max s.now tick ∧ t.sampling.outstanding = true ∧ t.sampling.position = 0
      ∧ t.sampling.strobeTick = tick ∧ t.sampling.cycleStart = tick
      ∧ t.sampling.period = period ∧ t.sampling.cyclePeriod = period ∧ t.sampling.freeRunCount = count
      ∧ t.sampling.accepted = false ∧ t.sampling.reference = s.sampling.reference
      ∧ (count = 4 → s.sampling.freeRunCount ≠ 4 →
          t.sampling.armed = false ∧ t.sampling.lastRef = none ∧ t.sampling.anchor = none)
      ∧ (¬(count = 4 ∧ s.sampling.freeRunCount ≠ 4) → t.sampling.armed = s.sampling.armed
          ∧ t.sampling.lastRef = s.sampling.lastRef ∧ t.sampling.anchor = s.sampling.anchor)
      ∧ t.retained.cycle = t.sampling.cycle ∧ t.retained.clock = surveyMs t
      ∧ t.store = s.store ∧ t.detector = s.detector ∧ t.peers = s.peers
      ∧ (s.sampling.firstCyclePending = false →
          t.sampling.cycle = s.sampling.cycle + 1
          ∧ t = { s with now := t.now, sampling := t.sampling, retained := t.retained }
          ∧ t.sampling.history = s.sampling.history)
      ∧ (s.sampling.firstCyclePending = true →
          t.sampling.cycle = 0 ∧ t.clock = .counting 0 tick ∧ t.sampling.history = [] ∧ t.capture.ring = []
          ∧ t.sampling.patchedSets = 0 ∧ t.sampling.lateSets = 0 ∧ t.sampling.firstCyclePending = false
          ∧ t.link = { s.link with queue := s.link.queue.map fun g => { g with openingWindow := none } }
          ∧ (∀ i, s.supply.state ≠ .safe → s.harmonic.interval = some i → t.harmonic.interval = some i)
          ∧ (s.supply.state ≠ .safe → s.harmonic.interval = none → ∃ i, t.harmonic.interval = some i
            ∧ i.startMs = 0 ∧ i.partial_ = true ∧ i.index = 0
            ∧ i = newInterval s.survey.settings s.survey.startSeconds 0 true)
          ∧ (s.supply.state = .safe → t.harmonic.interval = s.harmonic.interval))

/-- A taken set that shows an upward crossing of the reference channel disarms the clock. With a patched set before it
the anchor is forgotten; otherwise the crossing tick is computed and measured against the anchor: with none it becomes
the anchor, a period in range is taken and ends free-run, another changes nothing. A set that shows no crossing leaves
anchor and period as they are; a taken one arms the clock with a reference code of -floor(D / 4) or less, a patched one
never does (R8, R9, R10). -/
def Obligations.CrossingIsMeasured : Prop :=
  (∀ (s : State) (v1 v2 v3 : BitVec 16) (o : Bool) (ch : Channel) (a : RefSample),
    s.powered = true → s.sampling.outstanding = true → s.sampling.reference = some ch →
    s.sampling.lastRef = some a → s.sampling.armed = true → a.code < 0 →
    let codes : Tri Int := ⟨codeTaken v1, codeTaken v2, codeTaken v3⟩
    0 ≤ codes.get ch → 4 ≤ s.survey.settings.declared →
    let tick := a.tick + ((((s.sampling.strobeTick - a.tick : Nat) : Int) * -a.code) / (codes.get ch - a.code)).toNat
    ∃ t, exec (.sampleSetArrival v1 v2 v3 o) s = .next t
      ∧ t.sampling.armed = false
      ∧ (s.sampling.position ≠ 63 → t.sampling.reference = some ch ∧ t.sampling.lastRef = some
          { code := codes.get ch, tick := s.sampling.strobeTick, patched := false })
      ∧ (a.patched = true → t.sampling.anchor = none ∧ t.sampling.period = s.sampling.period
          ∧ t.sampling.freeRunCount = s.sampling.freeRunCount)
      ∧ (a.patched = false → s.sampling.anchor = none → t.sampling.period = s.sampling.period
          ∧ t.sampling.freeRunCount = s.sampling.freeRunCount
          ∧ (s.sampling.position ≠ 63 → t.sampling.anchor = some tick))
      ∧ (∀ x, a.patched = false → s.sampling.anchor = some x → 14493 ≤ tick - x → tick - x ≤ 23529 →
          t.sampling.period = tick - x ∧ t.sampling.freeRunCount = 0 ∧ t.sampling.accepted = true
          ∧ (s.sampling.position ≠ 63 → t.sampling.anchor = some tick))
      ∧ (∀ x, a.patched = false → s.sampling.anchor = some x → (tick - x < 14493 ∨ 23529 < tick - x) →
          t.sampling.period = s.sampling.period ∧ t.sampling.freeRunCount = s.sampling.freeRunCount
          ∧ t.sampling.accepted = s.sampling.accepted
          ∧ (s.sampling.position ≠ 63 → t.sampling.anchor = some x)))
  ∧ ∀ (s : State) (ch : Channel), s.powered = true → s.sampling.outstanding = true → s.sampling.reference = some ch →
    s.sampling.position < 63 →
    let crosses := fun (x : Int) => s.sampling.armed = true ∧ 0 ≤ x ∧ ∃ a, s.sampling.lastRef = some a ∧ a.code < 0
    let tracked := fun (x : Int) (patched armed : Bool) (t : State) =>
      t.sampling.armed = armed ∧ t.sampling.reference = some ch
      ∧ t.sampling.lastRef = some { code := x, tick := s.sampling.strobeTick, patched := patched }
      ∧ t.sampling.period = s.sampling.period ∧ t.sampling.freeRunCount = s.sampling.freeRunCount
      ∧ t.sampling.accepted = s.sampling.accepted
    (∀ (v1 v2 v3 : BitVec 16) (o : Bool),
      let codes : Tri Int := ⟨codeTaken v1, codeTaken v2, codeTaken v3⟩
      ¬crosses (codes.get ch) → ∃ t, exec (.sampleSetArrival v1 v2 v3 o) s = .next t
        ∧ t.sampling.anchor = s.sampling.anchor
        ∧ tracked (codes.get ch) false
            (s.sampling.armed || decide (codes.get ch ≤ -((s.survey.settings.declared / 4 : Nat) : Int))) t)
    ∧ ∃ t, exec .strobeDue s = .next t
      ∧ (¬crosses ((s.sampling.heldSet.getD ⟨0, 0, 0⟩).get ch) → t.sampling.anchor = s.sampling.anchor
          ∧ tracked ((s.sampling.heldSet.getD ⟨0, 0, 0⟩).get ch) true s.sampling.armed t)
      ∧ (crosses ((s.sampling.heldSet.getD ⟨0, 0, 0⟩).get ch) → t.sampling.anchor = none
          ∧ tracked ((s.sampling.heldSet.getD ⟨0, 0, 0⟩).get ch) true false t)

/-- R14 and R15: the RMS code is the whole-number root of the floored mean of the 64 squares, in both kinds of window
and whatever sets were patched, its sum below 2^37; the residual is the capped ratio to D, with its two extremes. -/
def Obligations.RmsAndResidualOfAWindow : Prop :=
  ((∀ l : List Int, l.length = 64 → (∀ x ∈ l, isCode x) →
      let sum := (l.map fun x => x.natAbs * x.natAbs).sum
      sum ≤ 68715282496 ∧ 68715282496 < 2 ^ 37
      ∧ rmsOf l * rmsOf l ≤ sum / 64 ∧ sum / 64 < (rmsOf l + 1) * (rmsOf l + 1) ∧ rmsOf l ≤ 32767)
    ∧ ∀ (s : State) (kind : WindowKind) (ch : Channel),
        (windowResult kind s).rms.get ch = rmsOf (s.sampling.history.map fun x => x.codes.get ch))
  ∧ (∀ (s : State) (kind : WindowKind) (ch : Channel),
      (windowResult kind s).residual.get ch
        = min 2000 (1000 * (windowResult kind s).rms.get ch / s.survey.settings.declared))
    ∧ (∀ rms, 2000 ≤ rms → residualOf 1000 rms = 2000)
    ∧ residualOf 23170 32767 = 1414

/-- A settled set at positions 31 and 63, taken by SAMPLE_SET_ARRIVAL or patched by STROBE_DUE: a window is evaluated
once 64 sets are held, numbered 2k - 1 in the middle of cycle k and 2k at its end; a valid end window chooses the
reference channel, the first of V1, V2, V3 at a tenth of D or above, or none, and an invalid one leaves it. A changed
reference drops the crossing history; a confirmed one leaves it as the set itself left it (R3, R4, R7, R13, R16). That
the window numbers have no bound is the model's choice (log 76). -/
def Obligations.WindowsAreEvaluatedTwiceACycle : Prop :=
  ∀ s : State, s.powered = true → s.sampling.outstanding = true →
    let settled := fun (x : SampleSet) (t : State) =>
      let sets := (x :: s.sampling.history).take 64
      let high := fun ch : Channel => s.survey.settings.declared / 10 ≤ rmsOf (sets.map fun y => y.codes.get ch)
      let tracked := (placeSet x s).sampling
      (s.sampling.position ≠ 31 → s.sampling.position ≠ 63 →
          t.sampling.latestWindow = s.sampling.latestWindow)
      ∧ (s.sampling.history.length < 63 → t.sampling.latestWindow = s.sampling.latestWindow)
      ∧ (s.sampling.position ≠ 63 ∨ s.sampling.history.length < 63 → t.sampling.reference = s.sampling.reference)
      ∧ (63 ≤ s.sampling.history.length → s.sampling.position = 31 →
          t.sampling.latestWindow = 2 * s.sampling.cycle - 1)
      ∧ (63 ≤ s.sampling.history.length → s.sampling.position = 63 →
          t.sampling.latestWindow = 2 * s.sampling.cycle
          ∧ (4 < patchedCount sets → t.sampling.reference = s.sampling.reference)
          ∧ (patchedCount sets ≤ 4 →
              (high .v1 → t.sampling.reference = some .v1)
              ∧ (¬high .v1 → high .v2 → t.sampling.reference = some .v2)
              ∧ (¬high .v1 → ¬high .v2 → high .v3 → t.sampling.reference = some .v3)
              ∧ (¬high .v1 → ¬high .v2 → ¬high .v3 → t.sampling.reference = none)))
      ∧ (t.sampling.reference ≠ s.sampling.reference →
          t.sampling.armed = false ∧ t.sampling.lastRef = none ∧ t.sampling.anchor = none)
      ∧ (t.sampling.reference = s.sampling.reference → (x.patched = false ∨ s.sampling.position < 63) →
          t.sampling.armed = tracked.armed ∧ t.sampling.lastRef = tracked.lastRef
          ∧ t.sampling.anchor = tracked.anchor)
    (∀ (v1 v2 v3 : BitVec 16) (o : Bool), ∃ t, exec (.sampleSetArrival v1 v2 v3 o) s = .next t
      ∧ settled { codes := ⟨codeTaken v1, codeTaken v2, codeTaken v3⟩, patched := false, overrange := o } t)
    ∧ ∃ t, exec .strobeDue s = .next t
      ∧ settled { codes := s.sampling.heldSet.getD ⟨0, 0, 0⟩, patched := true, overrange := false } t

/-! ### Sag detection -/

/-- The detector's state after each window: it leaves HELD only while a survey runs with its clock counting and the
supply not SAFE, opens on a valid window below T, recovers at T + H, settles over S windows, and falls back on a window
below T (R20, R22, R29, R30, R32, R33). -/
def Obligations.DetectorFollowsItsStates : Prop :=
  ∀ (w : WindowResult) (s : State),
    let g := s.survey.settings
    let t := (detectorWindow w s).1
    (s.detector.state = .held →
      ¬(s.survey.running = true ∧ s.clock.isCounting = true ∧ s.supply.state ≠ .safe) → t = s)
    ∧ (s.detector.state = .held → s.survey.running = true → s.clock.isCounting = true → s.supply.state ≠ .safe →
        t.detector.state = if w.valid && belowThreshold g w then .event else .quiet)
    ∧ (s.detector.state = .quiet → (w.valid && belowThreshold g w) = true → t.detector.state = .event)
    ∧ (s.detector.state = .quiet → (w.valid && belowThreshold g w) = false → t = s)
    ∧ (s.detector.state = .event → w.valid = true → isRecovered g w = true →
        (g.settle = 0 → t.detector.state = .quiet ∧ t.detector.event = .none)
        ∧ (g.settle ≠ 0 → t.detector.state = .settle ∧ t.detector.settleCount = g.settle
            ∧ t.detector.pendingSettle = 0))
    ∧ (s.detector.state = .event → (w.valid = false ∨ isRecovered g w = false) → t.detector.state = .event)
    ∧ (s.detector.state = .settle → w.valid = false →
        t.detector.state = .settle ∧ t.detector.settleCount = s.detector.settleCount
        ∧ t.detector.pendingSettle = s.detector.pendingSettle)
    ∧ (s.detector.state = .settle → w.valid = true → belowThreshold g w = true → t.detector.state = .event)
    ∧ (s.detector.state = .settle → w.valid = true → belowThreshold g w = false →
        (s.detector.settleCount ≤ 1 → t.detector.state = .quiet ∧ t.detector.event = .none)
        ∧ (1 < s.detector.settleCount → t.detector.state = .settle
            ∧ t.detector.settleCount = s.detector.settleCount - 1
            ∧ t.detector.pendingSettle = s.detector.pendingSettle + 1))

/-- The opening of an event: recorded with the next number and the items of R24 when the store grants a block, which it
does whenever one is free and an id is left, and run unrecorded and counted otherwise; the window's mark says so. A
recorded event has the start capture's status and waveform id, no end capture, a trigger notice that is sent when the
queue takes it, and an OPEN EVENT entry with pin count 0 whose block holds these items. A start capture that is granted
covers the cycles of R47, fitted to its grant; with a free slot and blocks to spare it is FULL (R21 to R26, R45 to R48,
R51, R85). -/
def Obligations.EventOpensOnASag : Prop :=
  ∀ (w : WindowResult) (s : State),
    s.detector.state = .quiet → w.valid = true → belowThreshold s.survey.settings w = true →
    let g := s.survey.settings
    let t := (detectorWindow w s).1
    let m := (detectorWindow w s).2
    t.detector.state = .event ∧ t.detector.openingWindow = w.number ∧ t.detector.openingCycle = w.cycle
    ∧ t.detector.resumeMark = false ∧ t.detector.endAsked = false ∧ m.eventWindow = true ∧ m.opened = true
    ∧ (1 ≤ s.store.freeCount → s.store.idCounter < 65536 → s.supply.state ≠ .safe →
        ∃ e, t.detector.event = .recorded e)
    ∧ ((t.detector.event = .unrecorded ∧ m.number = none
          ∧ t.detector.unrecorded = min 65535 (s.detector.unrecorded + 1)
          ∧ t.detector.nextEvent = s.detector.nextEvent ∧ t.detector.latest = s.detector.latest)
      ∨ ∃ e, t.detector.event = .recorded e ∧ m.number = some e.number
          ∧ e.number = s.detector.nextEvent ∧ t.detector.nextEvent = s.detector.nextEvent + 1
          ∧ t.detector.latest = some { number := e.number, recId := e.recId }
          ∧ t.detector.unrecorded = s.detector.unrecorded
          ∧ e.recId = s.store.idCounter ∧ e.survey = s.survey.number
          ∧ e.startMs = w.endMs ∧ e.endMs = none ∧ e.duration = 1 ∧ e.relapses = 0
          ∧ e.minRes = w.residual ∧ e.involved = channelsBelow g w
          ∧ e.interruption = isInterrupted g w
          ∧ e.interruptionWindows = (if isInterrupted g w then 1 else 0)
          ∧ e.flags = { cutShort := false, surveyEnd := false, invalidSeen := false
                        followsResume := s.detector.resumeMark, overrangeSeen := w.overrange }
          ∧ (e.startStatus = .none ∧ e.startId = none
              ∨ (e.startStatus = .full ∨ e.startStatus = .partial_) ∧ e.startId = some (e.recId + 1))
          ∧ e.endStatus = .none ∧ e.endId = none
          ∧ (QueueLaw s → (e.notice = true ↔ s.link.silent = false ∧ (s.link.queue.length < 16
              ∨ ∃ q ∈ s.link.queue, q.inTx = false ∧ 0 < q.kind.priority)))
          ∧ (e.notice = true → { newFrame .triggerNotice none (noticePayload s.survey.id e.number g w) with
              openingWindow := some w.number } ∈ t.link.queue)
          ∧ (StoreLaw s →
              (∃ x, findEntry t e.recId = some x ∧ x = {
                  id := e.recId, kind := .event, survey := s.survey.number, open_ := true, parent := none
                  chain := x.chain, hold := false, pins := some 0, time := w.endMs, desc := none }
                ∧ x.chain.length = 1 ∧ recordBytes t x = e.bytes 0 0)
              ∧ (RingBefore s w.cycle → (∀ c ∈ s.capture.ring, c.sets.length = 64) →
                (∀ id, e.startId = some id → CaptureGranted s t .ownStart { number := e.number, recId := e.recId }
                  w.cycle g.preCycles g.postCycles id (e.startStatus == .full))
                ∧ ((∃ i, slot s i = none) → s.supply.state ≠ .safe → s.store.idCounter + 1 < 65536 →
                  0 < min g.preCycles s.capture.ring.length + g.postCycles →
                  9 + 3 * (min g.preCycles s.capture.ring.length + g.postCycles) ≤ s.store.freeCount →
                  e.startStatus = .full))))

/-- What a recorded event keeps of the windows taken in EVENT and SETTLE, and that nothing else changes: an ordinary
window lengthens and deepens it, an invalid one marks it, a relapse adds the settle windows passed since the recovery.
A recovery window lengthens it, lowers its minima and gives it its end ms; when the end capture was not asked for yet
and the start slot is closed, the end capture is asked for, and its status and waveform id stand in the event record.
At the close, after the last settle window or at once with S = 0, the record is completed with its worst channel and
pin count, and CLOSED (R27 to R34, R45 to R49). That the end capture's grant is written into the event record at once
is the model's reading (log 13). The recovery's record is taken to carry no capture descriptor, as the DescriptorLaw
that StoreLawIsKept states says of every EVENT record. -/
def Obligations.EventKeepsItsWindows : Prop :=
  ∀ (w : WindowResult) (s : State) (e : EventWork), s.detector.event = .recorded e →
    let g := s.survey.settings
    let seen := e.flags.overrangeSeen || w.overrange
    let count := fun n => if isInterrupted g w then min 65535 (n + 1) else n
    let deep : EventWork := { e with
      minRes := Tri.zip min e.minRes w.residual
      involved := Tri.zip (fun a b => a || b) e.involved (channelsBelow g w)
      interruptionWindows := count e.interruptionWindows
      interruption := e.interruption || isInterrupted g w
      flags := { e.flags with overrangeSeen := seen } }
    let now := fun (e' : EventWork) => { s with detector := { s.detector with event := .recorded e' } }
    (s.detector.state = .event → w.valid = true → isRecovered g w = false →
      (detectorWindow w s).1 = now { deep with duration := min 65535 (e.duration + 1) })
    ∧ (s.detector.state = .event → w.valid = false →
      (detectorWindow w s).1 = now { e with
        duration := min 65535 (e.duration + 1)
        flags := { e.flags with overrangeSeen := seen, invalidSeen := true } })
    ∧ (s.detector.state = .settle → w.valid = false →
      (detectorWindow w s).1 = now { e with flags := { e.flags with overrangeSeen := seen, invalidSeen := true } })
    ∧ (s.detector.state = .settle → w.valid = true → belowThreshold g w = true →
      (detectorWindow w s).1 = { s with detector := { s.detector with
        state := .event
        pendingSettle := 0
        event := .recorded { deep with
          duration := min 65535 (e.duration + s.detector.pendingSettle + 1)
          relapses := min 255 (e.relapses + 1)
          endMs := none } } })
    ∧ (s.detector.state = .settle → w.valid = true → belowThreshold g w = false → 1 < s.detector.settleCount →
      (detectorWindow w s).1 = { s with detector := { s.detector with
        settleCount := s.detector.settleCount - 1
        pendingSettle := s.detector.pendingSettle + 1
        event := .recorded { e with flags := { e.flags with overrangeSeen := seen } } } })
    ∧ (StoreLaw s → ∀ x, findEntry s e.recId = some x → x.kind = .event → x.open_ = true → x.chain.length = 1 →
      let closed := fun (c : EventWork) (t : State) => t.detector.event = .none ∧ t.detector.state = .quiet
        ∧ t.detector.settleCount = 0 ∧ t.detector.pendingSettle = 0
        ∧ findEntry t e.recId = some { x with open_ := false }
        ∧ recordBytes t x = c.bytes
            (if c.minRes.v1 ≤ c.minRes.v2 ∧ c.minRes.v1 ≤ c.minRes.v3 then 1
              else if c.minRes.v2 ≤ c.minRes.v3 then 2 else 3) (x.pins.getD 0)
      (s.detector.state = .settle → w.valid = true → belowThreshold g w = false → s.detector.settleCount ≤ 1 →
        let t := (detectorWindow w s).1
        closed { e with flags := { e.flags with overrangeSeen := seen } } t
        ∧ t = { s with detector := t.detector, store := t.store }
        ∧ ∀ a, (∀ b ∈ x.chain, a < 128 * b ∨ 128 * b + 128 ≤ a) →
            Memory.readByte t.store.mem a = Memory.readByte s.store.mem a)
      ∧ (s.detector.state = .event → w.valid = true → isRecovered g w = true →
        x.desc = none → (∀ i y, slot s i = some y → y.kind = .companion → y.parent = none) →
        let t := (detectorWindow w s).1
        let asks := s.detector.endAsked = false ∧ ∀ i y, slot s i = some y → y.kind = .ownStart →
          y.parent.map LatestEvent.recId ≠ some e.recId
        let back : EventWork := { e with
          duration := min 65535 (e.duration + 1), endMs := some w.endMs
          minRes := Tri.zip min e.minRes w.residual, flags := { e.flags with overrangeSeen := seen } }
        let left := fun (c : EventWork) => if g.settle = 0 then closed c t else
          t.detector.event = .recorded c ∧ t.detector.state = .settle
          ∧ t.detector.settleCount = g.settle ∧ t.detector.pendingSettle = 0
        (¬asks → left back ∧ t.detector.endAsked = s.detector.endAsked
          ∧ t = { s with detector := t.detector, store := t.store } ∧ (g.settle ≠ 0 → t.store = s.store))
        ∧ (asks → t.detector.endAsked = true ∧ ∃ status id,
          left { back with endStatus := status, endId := id }
          ∧ (status = .none ∧ id = none
            ∨ (status = .full ∨ status = .partial_) ∧ id = some s.store.idCounter)
          ∧ byteAt (recordBytes t x) 29 = status.code ∧ u16At (recordBytes t x) 32 = id.getD 0
          ∧ bitAt (recordBytes t x) 6 2 = id.isSome
          ∧ (RingBefore s w.cycle → (∀ c ∈ s.capture.ring, c.sets.length = 64) →
            (∀ n, id = some n → CaptureGranted s t .ownEnd { number := e.number, recId := e.recId }
              w.cycle 2 g.endCycles n (status == .full))
            ∧ ((∃ i, slot s i = none) → s.supply.state ≠ .safe → s.store.idCounter < 65536 →
              0 < min 2 s.capture.ring.length + g.endCycles →
              8 + 3 * (min 2 s.capture.ring.length + g.endCycles) ≤ s.store.freeCount → status = .full)))))

/-! ### Harmonic records -/

/-- V_1 to V_25 of a channel's 64 codes, from the tables C and S, exact sums, floors and roots, every V_h within 32767;
the THD of V_1 to V_25, not formed when V_1 is 0; then the channel's THD sum, count and maximum stand while the harmonic
sums and maxima still take the cycle, each channel for itself (R61, R62, R63, R69). The table is written out over its
first quarter and carried on by the symmetries of R61. That a sum above its width is kept exact is the model's choice
(log 66). -/
def Obligations.ThdIsTheRatioOfTheRoots : Prop :=
  (∀ (x : List Int) (h : Nat), x.length = 64 → (∀ v ∈ x, isCode v) → 1 ≤ h → h ≤ 25 →
    let quarter : List Int := [32767, 32609, 32137, 31356, 30273, 28898, 27245, 25329, 23170, 20787, 18204, 15446, 12539,
      9512, 6393, 3212, 0]
    let C := fun k : Nat => if k ≤ 16 then quarter.getD k 0 else if k ≤ 32 then -quarter.getD (32 - k) 0
      else if k ≤ 48 then -quarter.getD (k - 32) 0 else quarter.getD (64 - k) 0
    let S := fun k : Nat => C ((k + 48) % 64)
    let A := ((List.range 64).map fun n => x.getD n 0 * C (h * n % 64)).sum
    let B := ((List.range 64).map fun n => x.getD n 0 * S (h * n % 64)).sum
    let a := A / 32768
    let b := B / 32768
    A.natAbs ≤ 68715282496 ∧ B.natAbs ≤ 68715282496 ∧ a * a + b * b < 2 ^ 44
    ∧ harmonicOf x h = min 32767 (Nat.sqrt (a * a + b * b).toNat * 46341 / 2097152))
  ∧ (∀ v : List Nat, v.length = 25 → (∀ x ∈ v, x ≤ 32767) →
    (v.tail.map fun x => x * x).sum ≤ 24 * 1073676289
    ∧ thdOf v = if v.headD 0 = 0 then none
        else some (min 9999 (10000 * Nat.sqrt (v.tail.map fun x => x * x).sum / v.headD 0)))
  ∧ (∀ (c : ChannelSums) (v : List Nat),
      let c' := c.takeCycle v
      c'.harmonicSq = List.zipWith (fun a x => a + x * x) c.harmonicSq v
      ∧ c'.harmonicMax = List.zipWith max c.harmonicMax v
      ∧ (thdOf v = none → c'.thdSum = c.thdSum ∧ c'.thdCount = c.thdCount ∧ c'.thdMax = c.thdMax)
      ∧ ∀ x, thdOf v = some x →
          c'.thdSum = c.thdSum + x ∧ c'.thdCount = c.thdCount + 1 ∧ c'.thdMax = max c.thdMax x)
  ∧ ∀ (c : CompletedCycle) (i : Interval) (ch : Channel), c.valid = true →
      (i.takeCycle c none none).sums.get ch = (i.sums.get ch).takeCycle
        ((List.range' 1 25).map (harmonicOf (c.sets.map fun x => x.codes.get ch)))

/-- An interval opened at t0 has the index of R65 and the accumulators R65 opens it with, and its end boundary is the
least boundary ms after t0: a whole second whose calendar second is a multiple of 60 L. A set settled at positions 31
and 63 with a window to evaluate, taken by SAMPLE_SET_ARRIVAL or patched by STROBE_DUE: a window at or after the end
boundary closes the interval there, recorded or counted as dropped, and opens the next; the interval then takes the
window, and at position 63 the cycle, as an event cycle, an invalid or a valid one. Each event number that the marks of
an event cycle carry, in window order, is counted when it differs from the last one counted. Before a survey's cycle 0
it takes neither (R3, R64 to R71). Three clauses are the model's choice: an interval opened on a return from SAFE waits
for cycle 0 (log 16), an end boundary above 32 bits is kept as it is (log 47), and a sum above its width is kept exact
(log 66). -/
def Obligations.IntervalEndsAtTheNextBoundary : Prop :=
  (∀ (g : Settings) (start t0 : Nat) (p : Bool), 0 < g.minutes →
    let i := newInterval g start t0 p
    i.startMs = t0 ∧ i.partial_ = p ∧ t0 < i.endBoundary ∧ 1000 ∣ i.endBoundary
    ∧ i.index = (start + t0 / 1000) / (60 * g.minutes) - start / (60 * g.minutes)
    ∧ 60 * g.minutes ∣ start + i.endBoundary / 1000
    ∧ (let empty : ChannelSums := {
          harmonicSq := List.replicate 25 0, harmonicMax := List.replicate 25 0
          thdSum := 0, thdCount := 0, thdMax := 0, rmsMin := 32767, rmsMax := 0, rmsSq := 0 }
      i = {
        index := i.index, startMs := t0, endBoundary := i.endBoundary, partial_ := p
        valid := 0, invalid := 0, event := 0, sums := ⟨empty, empty, empty⟩, periodSum := 0
        rmsWindows := 0, windows := 0, firstEvent := none, events := 0, lastEvent := none
        notices := 0, overrangeSets := 0 })
    ∧ ∀ b, t0 < b → 1000 ∣ b → 60 * g.minutes ∣ start + b / 1000 → i.endBoundary ≤ b)
  ∧ ∀ s : State, s.powered = true → s.sampling.outstanding = true →
    (s.sampling.position = 31 ∨ s.sampling.position = 63) → 63 ≤ s.sampling.history.length →
    ∀ i, s.harmonic.interval = some i →
    let settled := fun (x : SampleSet) (t : State) =>
      let sets := x :: s.sampling.assembled
      let w := windowResult (if s.sampling.position = 31 then .mid else .end_) (placeSet x s)
      let base := if i.endBoundary ≤ w.endMs then
        newInterval s.survey.settings s.survey.startSeconds i.endBoundary false else i
      (s.sampling.firstCyclePending = true → t.harmonic.interval = some i)
      ∧ (s.sampling.firstCyclePending = false → ∃ j, t.harmonic.interval = some j
        ∧ (let inEvent := s.detector.state = .event ∨ t.detector.state = .event
          let counts := w.valid = true ∧ ¬inEvent
          let eventCycle := inEvent ∨ s.harmonic.midMark.any EventMark.eventWindow = true
          let validCycle := ¬eventCycle ∧ patchedCount sets ≤ 4
          let spectrum := fun ch : Channel =>
            (List.range' 1 25).map (harmonicOf (sets.reverse.map fun y => y.codes.get ch))
          let numberOf := fun (e : OpenEvent) => match e with
            | .recorded k => [k.number]
            | _ => []
          let endNumber := if s.detector.state = .event then numberOf s.detector.event
            else if t.detector.state = .event then numberOf t.detector.event else []
          let count := fun (k : Nat × Option Nat × Option Nat) (n : Nat) =>
            if k.2.2 = some n then k else (min 65535 (k.1 + 1), some (k.2.1.getD n), some n)
          j.index = base.index ∧ j.startMs = base.startMs ∧ j.endBoundary = base.endBoundary
          ∧ j.partial_ = base.partial_ ∧ j.notices = base.notices
          ∧ j.windows = base.windows + 1 ∧ j.rmsWindows = base.rmsWindows + (if counts then 1 else 0)
          ∧ (∀ ch, (j.sums.get ch).rmsMin = min (base.sums.get ch).rmsMin (w.rms.get ch)
              ∧ (j.sums.get ch).rmsMax = max (base.sums.get ch).rmsMax (w.rms.get ch)
              ∧ (j.sums.get ch).rmsSq = (base.sums.get ch).rmsSq
                  + (if counts then w.rms.get ch * w.rms.get ch else 0))
          ∧ (s.sampling.position = 31 → j.valid = base.valid ∧ j.invalid = base.invalid ∧ j.event = base.event
              ∧ j.periodSum = base.periodSum ∧ j.overrangeSets = base.overrangeSets
              ∧ j.events = base.events ∧ j.firstEvent = base.firstEvent ∧ j.lastEvent = base.lastEvent
              ∧ ∀ ch, (j.sums.get ch).harmonicSq = (base.sums.get ch).harmonicSq
                ∧ (j.sums.get ch).harmonicMax = (base.sums.get ch).harmonicMax
                ∧ (j.sums.get ch).thdSum = (base.sums.get ch).thdSum
                ∧ (j.sums.get ch).thdCount = (base.sums.get ch).thdCount
                ∧ (j.sums.get ch).thdMax = (base.sums.get ch).thdMax)
          ∧ (s.sampling.position = 63 →
              j.overrangeSets = min 4294967295 (base.overrangeSets + overrangeCount sets)
              ∧ j.event = base.event + (if eventCycle then 1 else 0)
              ∧ j.valid = base.valid + (if validCycle then 1 else 0)
              ∧ j.invalid = base.invalid + (if ¬eventCycle ∧ 4 < patchedCount sets then 1 else 0)
              ∧ j.periodSum = base.periodSum + (if validCycle then s.sampling.cyclePeriod else 0)
              ∧ (eventCycle → (j.events, j.firstEvent, j.lastEvent)
                  = ((s.harmonic.midMark.bind EventMark.number).toList ++ endNumber).foldl count
                      (base.events, base.firstEvent, base.lastEvent))
              ∧ (¬eventCycle →
                  j.events = base.events ∧ j.firstEvent = base.firstEvent ∧ j.lastEvent = base.lastEvent)
              ∧ ∀ ch, let c := base.sums.get ch
                (¬validCycle → (j.sums.get ch).harmonicSq = c.harmonicSq ∧ (j.sums.get ch).harmonicMax = c.harmonicMax
                  ∧ (j.sums.get ch).thdSum = c.thdSum ∧ (j.sums.get ch).thdCount = c.thdCount
                  ∧ (j.sums.get ch).thdMax = c.thdMax)
                ∧ (validCycle →
                  (j.sums.get ch).harmonicSq = List.zipWith (fun a y => a + y * y) c.harmonicSq (spectrum ch)
                  ∧ (j.sums.get ch).harmonicMax = List.zipWith max c.harmonicMax (spectrum ch)
                  ∧ (j.sums.get ch).thdSum = c.thdSum + (thdOf (spectrum ch)).getD 0
                  ∧ (j.sums.get ch).thdCount = c.thdCount + (thdOf (spectrum ch)).toList.length
                  ∧ (j.sums.get ch).thdMax = max c.thdMax ((thdOf (spectrum ch)).getD 0))))
        ∧ (w.endMs < i.endBoundary →
          t.harmonic.dropped = s.harmonic.dropped ∧ t.harmonic.lastInterval = s.harmonic.lastInterval)
        ∧ (i.endBoundary ≤ w.endMs → StoreLaw s →
          t.harmonic.dropped = min 65535 (s.harmonic.dropped + 1)
            ∧ t.harmonic.lastInterval = s.harmonic.lastInterval
          ∨ t.harmonic.dropped = s.harmonic.dropped ∧ ∃ n, t.harmonic.lastInterval = some n
            ∧ s.store.idCounter ≤ n ∧ ∃ e, findEntry t n = some e ∧ e.kind = .interval ∧ e.open_ = false
            ∧ e.survey = s.survey.number ∧ e.time = i.startMs ∧ e.chain.length = 3))
    (∀ (v1 v2 v3 : BitVec 16) (o : Bool), ∃ t, exec (.sampleSetArrival v1 v2 v3 o) s = .next t
      ∧ settled { codes := ⟨codeTaken v1, codeTaken v2, codeTaken v3⟩, patched := false, overrange := o } t)
    ∧ ∃ t, exec .strobeDue s = .next t
      ∧ settled { codes := s.sampling.heldSet.getD ⟨0, 0, 0⟩, patched := true, overrange := false } t

/-- A closing interval: no interval is open, and either an INTERVAL record of 3 blocks is made, CLOSED, or the interval
is lost and counted. The record's 384 bytes are spelled in full: the 42 of its header, with the flags and the frequency,
and for each channel the RMS minimum, maximum and average, the THD average and maximum, and for each order the harmonic
average and maximum, every average 0 with no valid cycle (R73, R74, R75, R85; 12.2). -/
def Obligations.ClosedIntervalIsRecordedOrCounted : Prop :=
  ∀ (s : State) (i : Interval) (endMs : Nat) (short : Bool),
    StoreLaw s → s.harmonic.interval = some i →
    let t := closeInterval endMs short s
    let n := i.valid
    let average := fun x : Nat => if n = 0 then 0 else x
    let flags := (if i.partial_ = true ∨ short = true then 1 else 0) + (if 0 < i.event then 2 else 0)
      + (if n = 0 then 4 else 0)
    let header := u16 s.survey.number ++ u32 i.index ++ u32 i.startMs ++ u32 endMs ++ u8 flags ++ u32 n ++ u32 i.invalid
      ++ u32 i.event ++ u16 (i.firstEvent.getD 0) ++ u16 i.events ++ u16 i.notices ++ u32 i.overrangeSets
      ++ u32 (average (1000000000 / (i.periodSum / n))) ++ [0]
    let region := fun c : ChannelSums =>
      u16 (if i.windows = 0 then 0 else c.rmsMin) ++ u16 (if i.windows = 0 then 0 else c.rmsMax)
      ++ u16 (average (if i.rmsWindows = 0 then 0 else Nat.sqrt (c.rmsSq / i.rmsWindows)))
      ++ u16 (average (if c.thdCount = 0 then 0 else c.thdSum / c.thdCount)) ++ u16 c.thdMax
      ++ (c.harmonicSq.zip c.harmonicMax).flatMap fun x => u16 (average (Nat.sqrt (x.1 / n))) ++ u16 x.2
    let fields := header ++ region i.sums.v1 ++ region i.sums.v2 ++ region i.sums.v3
    t.harmonic.interval = none
    ∧ ((∃ e, t.harmonic.lastInterval = some s.store.idCounter ∧ findEntry t s.store.idCounter = some e
          ∧ e.kind = .interval ∧ e.open_ = false ∧ e.survey = s.survey.number ∧ e.time = i.startMs
          ∧ e.chain.length = 3 ∧ recordBytes t e = (fields ++ List.replicate 384 0).take 384
          ∧ t.harmonic.dropped = s.harmonic.dropped)
      ∨ (t.harmonic.lastInterval = s.harmonic.lastInterval
          ∧ t.harmonic.dropped = min 65535 (s.harmonic.dropped + 1) ∧ t.store.idCounter = s.store.idCounter))
    ∧ (11 ≤ s.store.freeCount → s.store.idCounter < 65536 → s.supply.state ≠ .safe →
        t.harmonic.lastInterval = some s.store.idCounter)

/-! ### The Record Store -/

/-- Bytes written are the bytes read, and every other byte reads as before (05, 5.1; 12, R188). -/
def Obligations.WrittenBytesReadBack : Prop :=
  ∀ (m : Memory) (a : Nat) (bs : List Byte) (x : Nat),
    Memory.readByte (Memory.write m a bs) x
      = if a ≤ x ∧ x < a + bs.length then bs.getD (x - a) 0 else Memory.readByte m x

/-- An allocation of n blocks, the reserve 8 for a capture or an interval and 0 otherwise. The records the asker may
shed stand in one order: by the first of the asker's groups they belong to, then by id; an own capture passes over its
own event's waveforms. Records go in that order, as few as give room; the record then made takes the next id and its
blocks from the head of the free list. With no room after all of them, an own capture sheds them all and takes the whole
cycles above the reserve, or nothing, and every other asker sheds none and is counted STORE_FULL, as it is with no id
left. In SAFE nothing happens. A shed waveform's event reads SHED with no waveform id, in the working copy too while it
is open, and no byte outside the events' blocks changes (R81, R84 to R89, R97). That in STANDBY group 2 compares with
the survey of the last header is the model's reading (log 29). -/
def Obligations.AllocationKeepsTheReserve : Prop :=
  ∀ (a : Asker) (n : Nat) (e : Entry) (s : State), StoreLaw s →
    let t := (allocate a n e s).1
    let g := (allocate a n e s).2
    let reserve := if a = .oneBlock then 0 else 8
    let survey := if s.survey.running then s.survey.number else (lastHeader s).elim 0 Entry.survey
    let unpinned := fun x : Entry => ∀ p, x.parent = some p → pinCount s p = 0
    let inGroup := fun (k : Nat) (x : Entry) => x.open_ = false ∧ x.hold = false ∧
      (k = 1 ∧ x.kind = .companion
      ∨ k = 2 ∧ (x.kind = .waveformStart ∨ x.kind = .waveformEnd) ∧ x.survey < survey ∧ unpinned x
      ∨ k = 3 ∧ x.kind = .waveformEnd ∧ unpinned x
      ∨ k = 4 ∧ x.kind = .waveformStart ∧ unpinned x
      ∨ k = 5 ∧ x.kind = .interval ∧ s.survey.settings.ring = true)
    let groups := match a with
      | .companion => [1]
      | .own _ => [1, 2, 3, 4]
      | .interval => [1, 2, 3, 5]
      | .oneBlock => [1, 2, 3, 4, 5]
    let firstIn := fun (k : Nat) (x : Entry) => inGroup k x ∧ ∀ j ∈ groups, j < k → ¬inGroup j x
    ∃ order : List Entry,
      (∀ x, x ∈ order ↔ x ∈ s.store.dir ∧ (∃ k ∈ groups, inGroup k x) ∧ ∀ p, a = .own p → x.parent ≠ some p)
      ∧ order.Pairwise (fun x y => ∀ j ∈ groups, ∀ k ∈ groups, firstIn j x → firstIn k y →
          j < k ∨ j = k ∧ x.id < y.id)
      ∧ (let freed := fun k : Nat => s.store.freeCount + ((order.take k).map fun x => x.chain.length).sum
        let room := fun k : Nat => n + reserve ≤ freed k
        let blocks := fun k : Nat => s.store.free ++ (order.take k).flatMap Entry.chain
        let left := fun k : Nat => s.store.dir.filter fun x => !(order.take k).contains x
        let shed := fun k : Nat => t.store.shed = (if k = 0 then s.store.shed else min 65535 (s.store.shed + k))
          ∧ t.store.refused = s.store.refused
        let made := fun k b : Nat => g = .made s.store.idCounter b ∧ t.store.idCounter = s.store.idCounter + 1
          ∧ t.store.dir = left k ++ [{ e with id := s.store.idCounter, chain := (blocks k).take b }]
          ∧ t.store.free = (blocks k).drop b ∧ t.store.freeCount = freed k - b ∧ shed k
        let full := g = .storeFull
          ∧ t = { s with store := { s.store with refused := min 65535 (s.store.refused + 1) } }
        let whole := freed order.length
        let part := if 8 < whole then 3 * ((whole - 8) / 3) else 0
        (s.supply.state = .safe → t = s ∧ g = .safe)
        ∧ (s.supply.state ≠ .safe → 65536 ≤ s.store.idCounter → full)
        ∧ (s.supply.state ≠ .safe → s.store.idCounter < 65536 →
          (∀ k, k ≤ order.length → room k → (∀ j, j < k → ¬room j) → made k n ∧ reserve ≤ t.store.freeCount)
          ∧ (¬room order.length → (∀ p, a ≠ .own p) → full)
          ∧ ∀ p, ¬room order.length → a = .own p →
            (0 < n → part < n)
            ∧ (0 < part → made order.length part ∧ 8 ≤ t.store.freeCount)
            ∧ (part = 0 → g = .nothing ∧ t.store.idCounter = s.store.idCounter ∧ t.store.dir = left order.length
                ∧ t.store.free = blocks order.length ∧ t.store.freeCount = whole ∧ shed order.length)))
      ∧ (ParentLaw s →
        (∀ x ∈ s.store.dir, x ∉ t.store.dir → x.kind = .waveformStart ∨ x.kind = .waveformEnd →
          ∀ p, x.parent = some p →
          let start := x.kind = .waveformStart
          (∀ ev, findEntry s p = some ev →
            let bs := recordBytes t ev
            byteAt bs (if start then 28 else 29) = 3 ∧ u16At bs (if start then 30 else 32) = 0
            ∧ bitAt bs 6 (if start then 1 else 2) = false)
          ∧ ∀ w, t.detector.event = .recorded w → w.recId = p →
            (if start then w.startStatus else w.endStatus) = .shed
            ∧ (if start then w.startId else w.endId) = none)
        ∧ ∀ b, (∀ ev ∈ s.store.dir, ev.kind = .event → b < 128 * ev.firstBlock ∨ 128 * ev.firstBlock + 128 ≤ b) →
            Memory.readByte t.store.mem b = Memory.readByte s.store.mem b)

/-- Shedding spares what it may not give up: an OPEN or held record, an event, note, context or header, and a waveform
whose event is pinned are still there after any allocation, with their blocks (R86, R87, R91, R92). -/
def Obligations.SheddingSparesProtectedRecords : Prop :=
  ∀ (a : Asker) (n : Nat) (e : Entry) (s : State) (x : Entry), StoreLaw s → x ∈ s.store.dir →
    (x.open_ = true ∨ x.hold = true ∨ x.kind = .header ∨ x.kind = .event ∨ x.kind = .note ∨ x.kind = .context
      ∨ (x.kind.isOwnWave = true ∧ parentPins s x ≠ 0)) →
    x ∈ (allocate a n e s).1.store.dir

/-! ### Reading and discarding records -/

/-- FETCH_SETUP of a record with a part selected: the station's cursor stands at the offset, held to the parts' total
length, over the parts as long as they are now; CLAMPED with index 5 when the offset lay beyond the end. The other
stations' cursors stand, but with four of them the one whose last use is the oldest is lost. An empty mask is refused
BAD_FIELD with index 4, a record that is not there NO_RECORD. FETCH on the sender's cursor: FETCH_DATA carries the tag,
whether the end is reached, and the next bytes, at most 96; the cursor moves on by as many, and the other stations'
cursors stand. Nothing else changes; with no cursor, or a record gone, a FETCH is refused. The bytes of the parts are
spelled for every kind, as they read in a record unchanged since the setup: the whole block of a HEADER, EVENT, NOTE or
CONTEXT; the first 42 bytes of an INTERVAL and its regions of 110; the 36 bytes of a waveform's descriptor, field by
field, and the written cycles of each captured channel, 128 bytes a cycle at decimation 1 and 64 at 2 (R45, R93, R94,
R95; 12.1, 12.2). That bits 4 to 7 of the part mask are ignored is the model's reading (log 36). -/
def Obligations.FetchReadsARecord : Prop :=
  (∀ (f : RxFrame) (s : State), Asks f 8 s →
    (byteAt f.payload 4 % 16 = 0 →
      exec (.fetchSetup f) s = .next (answered f .fetchSetup (.refused .badField 4) (heard f s)))
    ∧ (byteAt f.payload 4 % 16 ≠ 0 → findEntry s (u16At f.payload 2) = none →
      exec (.fetchSetup f) s = .next (answered f .fetchSetup (.refused .noRecord 0) (heard f s)))
    ∧ ∀ e, byteAt f.payload 4 % 16 ≠ 0 → findEntry s (u16At f.payload 2) = some e → s.store.cursors.length ≤ 4 →
      let parts := measuredParts s e (byteAt f.payload 4)
      let offset := u32At f.payload 5
      let cursor : Cursor := {
        station := f.sender, recId := e.id, gone := false, parts := parts, position := min offset (partsTotal parts)
        lastUse := s.store.useStamp + 1 }
      let others := s.store.cursors.filter fun c => c.station != f.sender
      ∃ kept, exec (.fetchSetup f) s = .next (answered f .fetchSetup
          (if partsTotal parts < offset then .clamped 5 0 0 else .accepted 0 0)
          { heard f s with store := { s.store with
              cursors := kept ++ [cursor], useStamp := s.store.useStamp + 1 } })
        ∧ kept.length ≤ 3
        ∧ (others.length < 4 → kept = others)
        ∧ (others.length = 4 → ∃ o ∈ others, (∀ c ∈ others, o.lastUse ≤ c.lastUse)
            ∧ kept = others.filter fun c => c.station != o.station))
  ∧ (∀ (f : RxFrame) (s : State), Asks f 1 s →
      (findCursor s f.sender = none →
        exec (.fetch f) s = .next (answered f .fetch (.refused .noSetup 0) (heard f s)))
      ∧ (∀ c, findCursor s f.sender = some c → (c.gone = true ∨ findEntry s c.recId = none) →
        exec (.fetch f) s = .next (answered f .fetch (.refused .gone 0) (heard f s)))
      ∧ ∀ c e, findCursor s f.sender = some c → c.gone = false → findEntry s c.recId = some e →
        s.store.cursors.length ≤ 4 →
        ∃ bytes, bytes = ((cursorBytes s e c).drop c.position).take 96
          ∧ bytes.length = min 96 (partsTotal c.parts - c.position)
          ∧ exec (.fetch f) s = .next (sentTo f.sender .fetchData
              ([f.payload.headD 0] ++ flag8 (decide (partsTotal c.parts ≤ c.position + bytes.length)) ++ bytes)
              { heard f s with store := { s.store with
                  cursors := (s.store.cursors.filter fun d => d.station != f.sender)
                    ++ [{ c with position := c.position + bytes.length, lastUse := s.store.useStamp + 1 }]
                  useStamp := s.store.useStamp + 1 } }))
  ∧ ∀ (s : State) (e : Entry) (mask : Nat) (c : Cursor), c.parts = measuredParts s e mask →
    let block := fun b : Nat => Memory.read s.store.mem (128 * b) 128
    let reads := fun (header : List Byte) (channel : Channel → List Byte) =>
      let bytes := (if mask.testBit 0 then header else []) ++ (if mask.testBit 1 then channel .v1 else [])
        ++ (if mask.testBit 2 then channel .v2 else []) ++ (if mask.testBit 3 then channel .v3 else [])
      cursorBytes s e c = bytes ∧ partsTotal c.parts = bytes.length
    (∀ b, (e.kind = .header ∨ e.kind = .event ∨ e.kind = .note ∨ e.kind = .context) → e.chain = [b] →
      reads (block b) fun _ => [])
    ∧ (∀ b0 b1 b2, e.kind = .interval → e.chain = [b0, b1, b2] →
      let bytes := block b0 ++ block b1 ++ block b2
      reads (bytes.take 42) fun ch => match ch with
        | .v1 => (bytes.drop 42).take 110
        | .v2 => (bytes.drop 152).take 110
        | .v3 => (bytes.drop 262).take 110)
    ∧ ∀ d, (e.kind = .waveformStart ∨ e.kind = .waveformEnd ∨ e.kind = .companion) → e.desc = some d →
      (d.decimation = 1 ∨ d.decimation = 2) → d.written ≤ d.total →
      let region := if d.decimation = 1 then d.total else (d.total + 1) / 2
      let bit := fun (b : Bool) (n : Nat) => if b then n else 0
      let captured := [d.channels.v1, d.channels.v2, d.channels.v3]
      e.chain.length = captured.count true * region →
      let parent := d.parent.elim [0, 0, 0, 0] fun p => u16 p.number ++ u16 p.recId
      let origin := d.origin.elim ([255] ++ List.replicate 9 0) fun o =>
        u8 o.station.val ++ u16 o.surveyId ++ u16 o.event ++ u32 o.arrivalMs ++ u8 o.age
      reads (u16 d.survey ++ parent ++ origin ++ u32 d.firstCycle ++ u32 d.firstMs ++ u16 d.firstPeriod ++ u8 d.wanted
          ++ u8 d.preTaken ++ u8 d.postTaken ++ u8 d.total ++ u8 d.written
          ++ u8 (bit d.channels.v1 1 + bit d.channels.v2 2 + bit d.channels.v3 4) ++ u8 d.decimation
          ++ u8 d.invalidWritten ++ u8 d.overrangeWritten
          ++ u8 (bit d.clipped 1 + bit d.truncated 2 + bit d.cutShort 4))
        fun ch =>
          let first := region * (captured.take (ch.number - 1)).count true
          if captured.getD (ch.number - 1) false then (List.range d.written).flatMap fun k =>
            if d.decimation = 1 then block (e.chain.getD (first + k) 0)
            else ((block (e.chain.getD (first + k / 2) 0)).drop (64 * (k % 2))).take 64
          else []

/-- DISCARD of a closed waveform, companion or interval that nothing protects: its entry goes, its blocks join the free
list at its tail in chain order, the free count rises, the other entries stand; the parent event of an own waveform
takes status SHED with no waveform id, in its record and in the working copy while it is open; no other byte changes. It
is answered ACCEPTED, once the offers have been formed from the new free count, as OffersLawIsKept says of a forming. A
DISCARD is refused with the first that holds of: no such record, another kind, OPEN, held, a pinned parent, the supply
in SAFE. A stop of the part within the change leaves the marker WRITING (R38, R81, R89, R90, R96, R98, R115). That such
a stop finds the record released is the model's reading (log 6). -/
def Obligations.DiscardReleasesTheRecord : Prop :=
  ∀ (f : RxFrame) (s : State), Asks f 3 s →
    let refused := fun r => exec (.discard f) s = .next (answered f .discard (.refused r 0) (heard f s))
    (findEntry s (u16At f.payload 2) = none → refused .noRecord)
    ∧ (∀ e, findEntry s (u16At f.payload 2) = some e →
      let discardable := e.kind = .waveformStart ∨ e.kind = .waveformEnd ∨ e.kind = .companion ∨ e.kind = .interval
      (¬discardable → refused .wrongKind)
      ∧ (discardable → e.open_ = true → refused .open_)
      ∧ (discardable → e.open_ = false → e.hold = true → refused .held)
      ∧ (discardable → e.open_ = false → e.hold = false → (∃ p, e.parent = some p ∧ pinCount s p ≠ 0) →
          refused .pinned)
      ∧ (discardable → e.open_ = false → e.hold = false → (∀ p, e.parent = some p → pinCount s p = 0) →
          s.supply.state = .safe → refused .safe))
    ∧ ∀ e, findEntry s (u16At f.payload 2) = some e → (e.kind.isWave = true ∨ e.kind = .interval) →
      e.open_ = false → e.hold = false → parentPins s e = 0 → s.supply.state ≠ .safe →
      ∃ t, exec (.discard f) s = .next t
        ∧ t.store.dir = s.store.dir.filter (fun x => x.id != e.id)
        ∧ t.store.free = s.store.free ++ e.chain ∧ t.store.freeCount = s.store.freeCount + e.chain.length
        ∧ t.store.idCounter = s.store.idCounter ∧ t.store.cursors = s.store.cursors
        ∧ t = { s with store := t.store, detector := t.detector, agreement := t.agreement, peers := t.peers
                       link := t.link }
        ∧ (let u := formOffers { heard f s with store := t.store, detector := t.detector }
          t = answered f .discard (.accepted 0 0) u
          ∧ exec (.supplyCut (.inDiscard f)) s = .next { u with
              powered := false, store := { t.store with writing := true } })
        ∧ (∀ a, (∀ p, e.parent = some p → ∀ ev, findEntry s p = some ev →
              a < 128 * ev.firstBlock ∨ 128 * ev.firstBlock + 128 ≤ a) →
            Memory.readByte t.store.mem a = Memory.readByte s.store.mem a)
        ∧ ((e.kind.isOwnWave = false ∨ e.parent = none) →
          t.store.mem = s.store.mem ∧ t.detector = s.detector)
        ∧ ∀ p, e.kind.isOwnWave = true → e.parent = some p →
          let start := e.kind = .waveformStart
          t.detector = { s.detector with event := t.detector.event }
          ∧ (∀ w, s.detector.event = .recorded w → t.detector.event = .recorded (
              if w.recId ≠ p then w
              else if start then { w with startStatus := .shed, startId := none }
              else { w with endStatus := .shed, endId := none }))
          ∧ ∀ ev, findEntry s p = some ev → p ≠ e.id → ev.chain ≠ [] →
            let byte := fun (u : State) (n : Nat) => Memory.readByte u.store.mem (128 * ev.firstBlock + n - 1)
            let present := if start then 1 else 2
            byte t (if start then 28 else 29) = 3
            ∧ byte t (if start then 30 else 32) = 0 ∧ byte t (if start then 31 else 33) = 0
            ∧ (byte t 6).getLsbD present = false
            ∧ (∀ k, k ≠ present → (byte t 6).getLsbD k = (byte s 6).getLsbD k)
            ∧ ∀ n, 1 ≤ n → n ≤ 128 → n ≠ 6 → n ≠ (if start then 28 else 29) → n ≠ (if start then 30 else 32) →
              n ≠ (if start then 31 else 33) → byte t n = byte s n

/-! ### Site notes -/

/-- CONTEXT_OPEN is judged in the order of R104: no survey running, the supply in SAFE, a full stack, 255 contexts made,
and then no block, nor one to shed for, nor an id; the first that holds refuses it with index 0, the last counted
STORE_FULL, and nothing else changes. One that passes makes a CONTEXT record of one block, whose bytes are spelled: the
next context number, the path above it, the author, the time and the label as held; the number is pushed. The answer
carries the number and the record id, and is CLAMPED, with the index of its first byte replaced or cut off, for a label
not held as it came. Where a block is free it is the list's first, and no byte outside it changes. CONTEXT_CLOSE removes
the innermost context, in every survey and supply state, and writes nothing into the store; on an empty stack it is
refused STACK_EMPTY (R102, R103, R104, R105; 12.1, 12.2). -/
def Obligations.ContextsOpenAndClose : Prop :=
  (∀ (f : RxFrame) (s : State), 2 ≤ f.payload.length → Asks f (2 + byteAt f.payload 2) s →
      (∀ failed reason, (contextChecks s).find? Prod.fst = some (failed, reason) →
        exec (.contextOpen f) s = .next (answered f .contextOpen (.refused reason 0) (heard f s)))
      ∧ ((contextChecks s).find? Prod.fst = none → StoreLaw s →
        (noBlockRoom s = true →
          exec (.contextOpen f) s = .next (answered f .contextOpen (.refused .storeFull 0) { heard f s with
            store := { s.store with refused := min 65535 (s.store.refused + 1) } }))
        ∧ (noBlockRoom s = false →
          let number := s.notes.contexts + 1
          let recId := s.store.idCounter
          let path := s.notes.stack
          let label := textHeld 24 (f.payload.drop 2)
          ∃ t e u, exec (.contextOpen f) s = .next t
            ∧ t = answered f .contextOpen (textAnswered 24 3 (f.payload.drop 2) number recId) u
            ∧ t.notes = { s.notes with stack := path ++ [number], contexts := number }
            ∧ t.store.idCounter = recId + 1 ∧ findEntry t recId = some e ∧ e.chain.length = 1
            ∧ e = { id := recId, kind := .context, survey := s.survey.number, open_ := false, parent := none
                    chain := e.chain, hold := false, pins := none, time := surveyMs s, desc := none }
            ∧ recordBytes t e = (u8 number ++ u8 path.length ++ path.map (BitVec.ofNat 8)
                ++ List.replicate (5 - path.length) 0 ++ u8 f.sender.val ++ u32 (surveyMs s) ++ u8 label.length ++ label
                ++ List.replicate 128 0).take 128
            ∧ (1 ≤ s.store.freeCount → e.chain = s.store.free.take 1
              ∧ t.store.free = s.store.free.drop 1 ∧ t.store.freeCount = s.store.freeCount - 1
              ∧ t.store.dir = s.store.dir ++ [e]
              ∧ u = formOffers { heard f s with store := t.store, notes := t.notes }
              ∧ t = { s with store := t.store, notes := t.notes, agreement := t.agreement, peers := t.peers
                             link := t.link }
              ∧ ∀ a, (∀ b ∈ s.store.free.take 1, a < 128 * b ∨ 128 * b + 128 ≤ a) →
                  Memory.readByte t.store.mem a = Memory.readByte s.store.mem a))))
  ∧ ∀ (f : RxFrame) (s : State), Asks f 1 s →
      (s.notes.stack = [] →
        exec (.contextClose f) s = .next (answered f .contextClose (.refused .stackEmpty 0) (heard f s)))
      ∧ ∀ (outer : List Nat) (n : Nat), s.notes.stack = outer ++ [n] →
        exec (.contextClose f) s = .next (answered f .contextClose (.accepted 0 0)
          { heard f s with notes := { s.notes with stack := outer } })

/-- NOTE_ADD is judged in the order of R106: no survey running, the supply in SAFE, a choice, an event number or a text
length out of its values, no event, 15 pins, an event with a waveform shed; the first that holds refuses it, BAD_FIELD
with the index of its field and the others with index 0, and changes nothing. The event's pin count is then raised by 1;
with no block, nor one to shed for, nor an id, it is lowered again, the note refused STORE_FULL and counted. Otherwise a
NOTE record of one block is made, whose bytes are spelled: the next note number, the time, the author, the context path,
the event attached and the text as held. The pin stands in the directory, and in byte 35 of the record of a CLOSED
event. The answer carries the number and the record id, and is CLAMPED, with the index of its first byte replaced or cut
off, for a text not held as it came. Where a block is free it is the list's first, and nothing of memory changes but the
block and that byte. A stop of the part between the raise and the writing leaves the pin one too high, no note, and no
number used (R92, R103, R106 to R109; 12.1, 12.2). Three clauses are the model's reading: with several bytes at fault
the index is that of the lowest, so that a choice or an event number goes before a text length (log 44), an event number
beside another choice than EVENT is not looked at (log 50), and where within the command a stop can fall (log 6). -/
def Obligations.NoteAddWritesANote : Prop :=
  ∀ (f : RxFrame) (s : State), 5 ≤ f.payload.length → Asks f (5 + byteAt f.payload 5) s →
    (∀ failed reason index, (noteChecks f.payload s).find? Prod.fst = some (failed, reason, index) →
      exec (.noteAdd f) s = .next (answered f .noteAdd (.refused reason index) (heard f s)))
    ∧ ((noteChecks f.payload s).find? Prod.fst = none → StoreLaw s → s.notes.stack.length ≤ 6 →
      let event := noteEvent f.payload s
      let pinned := event.elim s fun ev => withPinRaised ev s
      let pins := fun ev : LatestEvent => pinCount s ev.recId
      let pinByte := fun (ev : LatestEvent) (x : Entry) (a : Nat) => event = some ev ∧ findEntry s ev.recId = some x
        ∧ x.open_ = false ∧ a = 128 * x.firstBlock + 34
      let number := s.notes.nextNote
      let recId := s.store.idCounter
      let path := s.notes.stack
      let text := textHeld 108 (f.payload.drop 5)
      (∃ t, exec (.supplyCut (.inNoteAdd f)) s = .next t
        ∧ t = { heard f s with
            powered := false, store := { s.store with dir := pinned.store.dir, mem := t.store.mem } }
        ∧ (∀ ev x a, pinByte ev x a → Memory.readByte t.store.mem a = BitVec.ofNat 8 (pins ev + 1))
        ∧ ∀ a, (∀ ev x, ¬pinByte ev x a) → Memory.readByte t.store.mem a = Memory.readByte s.store.mem a)
      ∧ (noBlockRoom pinned = true → ∃ m,
        exec (.noteAdd f) s = .next (answered f .noteAdd (.refused .storeFull 0) { heard f s with
          store := { s.store with
            refused := min 65535 (s.store.refused + 1), mem := m
            dir := s.store.dir.map fun x =>
              if event.map LatestEvent.recId = some x.id then { x with pins := some (pinCount s x.id) } else x } })
        ∧ (∀ ev x a, pinByte ev x a → Memory.readByte m a = BitVec.ofNat 8 (pins ev))
        ∧ ∀ a, (∀ ev x, ¬pinByte ev x a) → Memory.readByte m a = Memory.readByte s.store.mem a)
      ∧ (noBlockRoom pinned = false → ∃ t e u, exec (.noteAdd f) s = .next t
        ∧ t = answered f .noteAdd (textAnswered 108 6 (f.payload.drop 5) number recId) u
        ∧ t.notes = { s.notes with nextNote := number + 1 }
        ∧ t.store.idCounter = recId + 1 ∧ findEntry t recId = some e ∧ e.chain.length = 1
        ∧ e = { id := recId, kind := .note, survey := s.survey.number, open_ := false, parent := none
                chain := e.chain, hold := false, pins := none, time := surveyMs s, desc := none }
        ∧ recordBytes t e = (u16 number ++ u32 (surveyMs s) ++ u8 f.sender.val ++ u8 path.length ++ [0]
            ++ u16 (event.elim 0 LatestEvent.number) ++ path.map (BitVec.ofNat 8) ++ List.replicate (6 - path.length) 0
            ++ u8 text.length ++ text ++ List.replicate 128 0).take 128
        ∧ (∀ ev x, event = some ev → findEntry s ev.recId = some x → x.kind = .event →
            pinCount t ev.recId = pins ev + 1
            ∧ (x.chain ≠ [] → ∀ a, pinByte ev x a → Memory.readByte t.store.mem a = BitVec.ofNat 8 (pins ev + 1)))
        ∧ (1 ≤ s.store.freeCount → e.chain = s.store.free.take 1
          ∧ t.store.free = s.store.free.drop 1 ∧ t.store.freeCount = s.store.freeCount - 1
          ∧ t.store.dir = pinned.store.dir ++ [e]
          ∧ u = formOffers { heard f s with store := t.store, notes := t.notes }
          ∧ t = { s with store := t.store, notes := t.notes, agreement := t.agreement, peers := t.peers
                         link := t.link }
          ∧ ∀ a, (∀ b ∈ s.store.free.take 1, a < 128 * b ∨ 128 * b + 128 ≤ a) → (∀ ev x, ¬pinByte ev x a) →
              Memory.readByte t.store.mem a = Memory.readByte s.store.mem a)))

/-- NOTE_STRIKE names a note of the running survey, or of the last one started. It is refused BAD_FIELD with index 2 for
number 0 and NO_NOTE where that survey has no such note; a note struck before is accepted again with no change. One not
yet struck reads as struck, and the pin count of the event it is attached to is one lower, 0 at least, in the directory
and in byte 35 of the record of a CLOSED event; every other entry and every other byte stands, and the answer is
ACCEPTED. A stop of the part between the two leaves the note struck, the directory as it was and the marker WRITING
(R92, R98, R110; 12.1, 12.2). Where within the command a stop can fall is the model's reading (log 6). -/
def Obligations.NoteStrikeMarksTheNote : Prop :=
  ∀ (f : RxFrame) (s : State), Asks f 3 s →
    let number := u16At f.payload 2
    let survey := if s.survey.running then some s.survey.number else (lastHeader s).map Entry.survey
    let note := survey.bind fun v => s.store.dir.find? fun x =>
      x.kind == .note && x.survey == v && u16At (recordBytes s x) 1 == number
    let refused := fun r i => exec (.noteStrike f) s = .next (answered f .noteStrike (.refused r i) (heard f s))
    (number = 0 → refused .badField 2)
    ∧ (number ≠ 0 → note = none → refused .noNote 0)
    ∧ ∀ e, number ≠ 0 → note = some e →
      (byteAt (recordBytes s e) 9 ≠ 0 →
        exec (.noteStrike f) s = .next (answered f .noteStrike (.accepted 0 0) (heard f s)))
      ∧ (byteAt (recordBytes s e) 9 = 0 → StoreLaw s →
        let attached := u16At (recordBytes s e) 10
        let event := if attached = 0 then none else s.store.dir.find? fun x =>
          x.kind == .event && x.survey == e.survey && u16At (recordBytes s x) 1 == attached
        let struckByte := 128 * e.firstBlock + 8
        (∃ t u, exec (.noteStrike f) s = .next t ∧ t = answered f .noteStrike (.accepted 0 0) u
          ∧ u = { heard f s with store := { s.store with
              mem := t.store.mem
              dir := s.store.dir.map fun x =>
                if event.map Entry.id = some x.id then { x with pins := some (pinCount s x.id - 1) } else x } }
          ∧ Memory.readByte t.store.mem struckByte = 1
          ∧ (∀ ev, event = some ev → ev.open_ = false →
              Memory.readByte t.store.mem (128 * ev.firstBlock + 34) = BitVec.ofNat 8 (pinCount s ev.id - 1))
          ∧ ∀ a, a ≠ struckByte → (∀ ev, event = some ev → ev.open_ = false → a ≠ 128 * ev.firstBlock + 34) →
              Memory.readByte t.store.mem a = Memory.readByte s.store.mem a)
        ∧ ∃ t, exec (.supplyCut (.inNoteStrike f)) s = .next t
          ∧ t = { heard f s with
              powered := false, store := { s.store with mem := t.store.mem, writing := true } }
          ∧ Memory.readByte t.store.mem struckByte = 1
          ∧ ∀ a, a ≠ struckByte → Memory.readByte t.store.mem a = Memory.readByte s.store.mem a)

/-! ### Surveys -/

/-- SURVEY_SET of a group's fields: every selected field is written, a number outside its values clamped, and nothing
else changes but the answer; a choice that is no choice writes nothing; while a survey runs only G7 is open. A payload
below 3 bytes, a group outside G1 to G7, a mask that is empty or beyond the group's fields, and a length that the mask
does not call for are refused with their byte. For every group and mask the values taken and written are those of the
table of 10.7: the choices of frequency, store mode, cell width, colour and the switches, the bounds of each number, L
the largest allowed value not above the one sent and 1 below 1, the offer count at most 6; an offer with an empty
channel set, or a decimation other than 1 and 2, is refused. The answer is CLAMPED with the byte of the first value
clamped, or ACCEPTED (R174, R176). That a bad group, mask or length is judged before LOCKED, and which byte the index of
a bad choice or a clamped value names, is the model's reading (log 25). -/
def Obligations.SurveySetWritesTheFields : Prop :=
  (∀ (f : RxFrame) (s : State), Reaches f s → f.broadcast = false →
    let fields := readFields f.payload 4 (chosenFields f.payload)
    (∀ i, setFault f.payload = some i →
      exec (.surveySet f) s = .next (answered f .surveySet (.refused .badField i) (heard f s)))
    ∧ (setFault f.payload = none → s.survey.running = true → byteAt f.payload 2 ≠ 7 →
      exec (.surveySet f) s = .next (answered f .surveySet (.refused .locked 0) (heard f s)))
    ∧ (setFault f.payload = none → (s.survey.running = false ∨ byteAt f.payload 2 = 7) →
      (∀ i, firstPart PartValue.isBadChoice fields = some i →
        exec (.surveySet f) s = .next (answered f .surveySet (.refused .badField i) (heard f s)))
      ∧ (firstPart PartValue.isBadChoice fields = none →
        exec (.surveySet f) s = .next (answered f .surveySet
          (match firstPart PartValue.isClamped fields with
            | none => .accepted 0 0
            | some i => .clamped i 0 0)
          { heard f s with survey := { s.survey with settings := writeFields fields s.survey.settings } }))))
  ∧ (∀ (f : RxFrame) (s : State) (tag h w : Byte) (t i : BitVec 16), Reaches f s → f.broadcast = false →
    s.survey.running = false →
    f.payload = [tag, 2, 15, (t >>> (8 : Nat)).setWidth 8, t.setWidth 8, h, (i >>> (8 : Nat)).setWidth 8,
      i.setWidth 8, w] →
    ∃ u, exec (.surveySet f) s = .next u ∧ u.survey = { s.survey with settings := { s.survey.settings with
      threshold := min 990 (max 100 t.toNat), hysteresis := min 100 h.toNat
      interruption := min 989 i.toNat, settle := min 20 w.toNat } })
  ∧ (∀ (f : RxFrame) (s : State), Reaches f s → f.broadcast = false →
    let length := f.payload.length
    let group := byteAt f.payload 2
    let mask := byteAt f.payload 3
    let widths := settingWidths group
    let need := 3 + (masked mask widths).sum
    let refused := fun reason index =>
      exec (.surveySet f) s = .next (answered f .surveySet (.refused reason index) (heard f s))
    let known := 3 ≤ length ∧ 1 ≤ group ∧ group ≤ 7
    let masking := known ∧ 1 ≤ mask ∧ mask < 2 ^ widths.length
    (length < 3 → refused .badField (length + 1))
    ∧ (3 ≤ length → group = 0 ∨ 7 < group → refused .badField 2)
    ∧ (known → mask = 0 ∨ 2 ^ widths.length ≤ mask → refused .badField 3)
    ∧ (masking → length < need → refused .badField (length + 1))
    ∧ (masking → need < length → refused .badField (need + 1))
    ∧ (masking → length = need → s.survey.running = true → group ≠ 7 → refused .locked 0))
  ∧ (∀ (f : RxFrame) (s : State) (tag : Byte) (group mask : Nat) (values : List Nat), Reaches f s →
    f.broadcast = false → (s.survey.running = false ∨ group = 7) →
    1 ≤ mask → mask < 2 ^ (settingRows group).length →
    let rows := masked mask (settingRows group)
    let fields := rows.zip values
    values.length = rows.length → (∀ x ∈ fields, x.2 < 256 ^ x.1.width) →
    f.payload = [tag] ++ u8 group ++ u8 mask ++ settingBytes fields →
    exec (.surveySet f) s = .next (match settingIndex (fun x => !x.1.taken x.2) 4 fields with
      | some i => answered f .surveySet (.refused .badField i) (heard f s)
      | none => answered f .surveySet
          ((settingIndex (fun x => x.1.held x.2 != x.2) 4 fields).elim (.accepted 0 0) fun i => .clamped i 0 0)
          { heard f s with survey := { s.survey with
            settings := fields.foldl (fun g x => x.1.put (x.1.held x.2) g) s.survey.settings } }))
  ∧ ∀ (f : RxFrame) (s : State) (k : Fin 6) (tag c pre post d rate : Byte), Reaches f s → f.broadcast = false →
    s.survey.running = false → f.payload = [tag, 5, BitVec.ofNat 8 (2 ^ (k.val + 1)), c, pre, post, d, rate] →
    let answeredBy := fun r u => exec (.surveySet f) s = .next (answered f .surveySet r u)
    let written := { heard f s with survey := { s.survey with settings := { s.survey.settings with
      offers := s.survey.settings.offers.set k
        (some (offerHeld c.toNat pre.toNat post.toNat d.toNat rate.toNat)) } } }
    let empty := c.toNat % 8 = 0
    let decimates := d = 1 ∨ d = 2
    let good := ¬empty ∧ decimates
    let postHeld := 1 ≤ post.toNat ∧ post.toNat ≤ 24
    let rateHeld := 1 ≤ rate.toNat ∧ rate.toNat ≤ 60
    (empty → answeredBy (.refused .badField 4) (heard f s))
    ∧ (¬empty → ¬decimates → answeredBy (.refused .badField 7) (heard f s))
    ∧ (good → 8 < pre.toNat → answeredBy (.clamped 5 0 0) written)
    ∧ (good → pre.toNat ≤ 8 → ¬postHeld → answeredBy (.clamped 6 0 0) written)
    ∧ (good → pre.toNat ≤ 8 → postHeld → ¬rateHeld → answeredBy (.clamped 8 0 0) written)
    ∧ (good → pre.toNat ≤ 8 → postHeld → rateHeld → answeredBy (.accepted 0 0) written)

/-- SURVEY_START is judged in this order: a field out of its values, a survey running, I not below T, Cpre + Cpost above
40, a KEEP with the id counter above 60 000 or the last survey number 65535, the supply in SAFE, a KEEP whose header
finds no block, nor one it may shed for, nor an id; the first that holds refuses it, with the index of the field or 0,
and nothing changes. One that passes begins the survey: its number is the last survey number plus 1, and 1 when an ERASE
finds that at 65535; the header record is the last of the store, and its 128 bytes are spelled: number, id and second
with RUNNING, next event number 1 and the settings in force; ERASE leaves no other record, the header in block 0 and
every read cursor GONE; the marker reads WRITING, the clock holds 0 until the first cycle, the detector, the notes and
the capture counters start afresh. From a state that meets the law of OffersLawIsKept the open-offer list is formed and
its revision is exactly 1 higher; the first OFFERS is handed over, or waits while the send limit runs, or is not sent by
a silent station; the requester record of each peer already in this survey reads NO_OFFER with a retry timer of 5000 ms
when the seek flag is on, and no other peer item changes. The answer, handed over last, carries the number (R18, R40,
R44, R79, R98, R101, R111, R115, R116, R118, R129, R177). That the store action is 0 for ERASE and 1 for KEEP is 12.1's.
Three clauses are the model's reading: an offer never set stands in the header as five bytes 0 (log 26), the ANSWER is
handed over after the OFFERS (log 43), and a KEEP refused STORE_FULL leaves the counter of refused allocations as it was
(log 44). -/
def Obligations.SurveyStartBeginsASurvey : Prop :=
  ∀ (f : RxFrame) (s : State), Asks f 8 s →
    let id := u16At f.payload 2
    let seconds := u32At f.payload 4
    let action := byteAt f.payload 8
    let g := s.survey.settings
    (∀ failed reason index, (startChecks f.payload s).find? Prod.fst = some (failed, reason, index) →
        exec (.surveyStart f) s = .next (answered f .surveyStart (.refused reason index) (heard f s)))
      ∧ ((startChecks f.payload s).find? Prod.fst = none → StoreLaw s →
        let number := if action = 0 ∧ s.retained.lastSurvey = 65535 then 1 else s.retained.lastSurvey + 1
        ∃ t h u, exec (.surveyStart f) s = .next t ∧ t = answered f .surveyStart (.accepted number 0) u
          ∧ t.survey = { running := true, number := number, id := id, startSeconds := seconds, settings := g }
          ∧ lastHeader t = some h ∧ h.survey = number ∧ t.store.dir.getLast? = some h
          ∧ recordBytes t h = startHeader number id seconds g
          ∧ (action = 0 → t.store.dir = [h] ∧ h.id = 1 ∧ h.chain = [0] ∧ t.store.free = List.range' 1 4095
              ∧ t.store.freeCount = 4095
              ∧ t.store.cursors = s.store.cursors.map fun c => { c with gone := true })
          ∧ (action = 1 → t.store.cursors = s.store.cursors ∧ h.id = s.store.idCounter ∧ (1 ≤ s.store.freeCount →
              t.store.dir = s.store.dir ++ [h] ∧ t.store.freeCount = s.store.freeCount - 1))
          ∧ t.store.idCounter = h.id + 1
          ∧ t.store.writing = true ∧ t.retained.lastSurvey = number ∧ retainedSeconds t = seconds
          ∧ t.clock = .holding 0 ∧ t.sampling = { s.sampling with firstCyclePending := true }
          ∧ t.detector.state = .held ∧ t.detector.event = .none ∧ t.detector.nextEvent = 1
          ∧ t.detector.latest = none ∧ t.detector.unrecorded = 0 ∧ t.detector.resumeMark = false
          ∧ t.notes = { stack := [], contexts := 0, nextNote := 1 }
          ∧ t.capture.ownRefused = 0 ∧ t.capture.displaced = 0 ∧ t.store.shed = 0 ∧ t.store.refused = 0
          ∧ t.harmonic.dropped = 0 ∧ t.harmonic.lastInterval = none
          ∧ t.agreement.list = openOffers t ∧ t.composer = s.composer ∧ t.printer = s.printer ∧ t.supply = s.supply
          ∧ (OffersLaw s →
              let list := openOffers t
              let revision := (s.agreement.revision + 1) % 65536
              let same := fun st : Station => decide (st.val < 8) && st != ownStation s && (peer s st).present
                && (peer s st).running && (peer s st).surveyId == id
              let limited := ∃ d, s.agreement.sendLimit = some d ∧ s.now < d
              (∀ st, let p := peer (heard f s) st
                peer t st = if same st && g.seek then { p with requester := { p.requester with
                  state := .noOffer, retryTimer := some (s.now + 5000000), answerTimer := none } } else p)
              ∧ (s.link.silent = true → u.link = (heard f s).link
                  ∧ t.agreement = { s.agreement with list := [], revision := revision })
              ∧ (s.link.silent = false → limited → u.link = (heard f s).link
                  ∧ t.agreement = { s.agreement with list := list, revision := revision, pendingOffers := true })
              ∧ (s.link.silent = false → ¬limited →
                  u.link = ((heard f s).link.handOver (offersFrame id revision list)).1
                  ∧ t.agreement = { list := list, revision := revision, pendingOffers := false
                                    sendLimit := some (s.now + 1000000), refresh := some (s.now + 10000000) })))

/-- SURVEY_END while a survey runs: the event, the captures, the interval and every agreement are closed, the context
stack is emptied, the marker reads CONSISTENT, and the survey clock holds the value it had; the survey's number, id and
settings stand, and the sampling goes on. The record of an event in progress is completed with SURVEY_END, an event not
yet recovered ending at the clock's value, and CLOSED. Each open capture is closed with the cycles it has, TRUNCATED.
The header takes ENDED at byte 9 and the next event number at bytes 10 and 11. Each agreement that stands once the
event, the slots and the interval are closed is ended by an AGREE_END with reason SURVEY_END, the provider records
first, each in station order, before the ANSWER; the queue those frames join is that of the state so far closed. In
STANDBY it is refused NOT_RUNNING. A stop of the part before the marker reads CONSISTENT leaves it WRITING, all else
closed. The premises are laws of StoreLawIsKept (R34, R35, R57, R58, R76, R98, R112, R127, R178). Four clauses are the
model's reading: a first cycle still awaited is awaited no more (log 15), a requester record that ends reads as a fresh
one (log 39), the AGREE_ENDs of one side go in rising station number (log 40), and where within the command a stop can
fall (log 6). -/
def Obligations.SurveyEndClosesEverything : Prop :=
  ∀ (f : RxFrame) (s : State), Asks f 1 s →
    (s.survey.running = false →
      exec (.surveyEnd f) s = .next (answered f .surveyEnd (.refused .notRunning 0) (heard f s)))
    ∧ (s.survey.running = true → ∃ t, exec (.surveyEnd f) s = .next t
      ∧ t.survey = { s.survey with running := false } ∧ t.clock = .holding (surveyMs s)
      ∧ t.sampling = { s.sampling with firstCyclePending := false } ∧ t.now = s.now
      ∧ t.detector.state = .held ∧ t.detector.event = .none ∧ t.detector.resumeMark = false
      ∧ t.detector.nextEvent = s.detector.nextEvent ∧ t.detector.latest = s.detector.latest
      ∧ (∀ i, slot t i = none) ∧ t.harmonic.interval = none
      ∧ t.notes = { s.notes with stack := [] } ∧ t.store.writing = false
      ∧ t.agreement.list = []
      ∧ (∀ st, (peer t st).requester = Requester.none ∧ (peer t st).provider = none)
      ∧ t.composer = s.composer ∧ t.printer = s.printer ∧ t.supply = s.supply ∧ t.pins = s.pins
      ∧ (StoreLaw s → DescriptorLaw s → ParentLaw s → SlotsApart s →
          (s.harmonic.interval = none ∨ 11 ≤ s.store.freeCount) → ∀ i, ClosedShort s t i .truncated)
      ∧ (StoreLaw s → DescriptorLaw s → ParentLaw s → EventStopped false s t ∧ ∀ h, lastHeader s = some h →
          HeaderTakes s t h [(9, [1]), (10, u16 s.detector.nextEvent)])
      ∧ (∃ v, exec (.supplyCut (.inSurveyEnd f)) s = .next v ∧ v.powered = false ∧ v.survey = s.survey
          ∧ v.clock = s.clock ∧ v.store = { t.store with writing := true } ∧ v.detector = t.detector
          ∧ v.capture = t.capture ∧ v.harmonic = t.harmonic ∧ v.notes = t.notes)
      ∧ ((peer s (ownStation s)).provider = none → (peer s (ownStation s)).requester.state ≠ .active →
        let stopped := stopDetector false (heard f s)
        let unmarked := { stopped with detector := { stopped.detector with resumeMark := false } }
        let u := closeInterval (surveyMs s) true (closeAllShort .truncated unmarked)
        (∀ st, (peer u st).requester = (peer s st).requester)
          ∧ (∀ st p, (peer u st).provider = some p → (peer s st).provider = some p)
          ∧ ((∀ i, slot s i = none) → s.harmonic.interval = none →
              u.link = (heard f s).link ∧ ∀ st, (peer u st).provider = (peer s st).provider)
          ∧ let provided := allStations.filterMap fun st => (peer u st).provider.map fun p =>
              newFrame .agreeEnd (some st) (u8 p.position ++ [0, 2])
            let requested := (allStations.filter fun st => (peer u st).requester.state = .active).map fun st =>
              newFrame .agreeEnd (some st) (u8 (peer u st).requester.position ++ [1, 2])
            t.link = (answered f .surveyEnd (.accepted 0 0) { s with
              link := (provided ++ requested).foldl (fun l x => (l.handOver x).1) u.link }).link))

/-- STATUS_QUERY is answered by a STATUS with the request's three bytes and the section as it stands, and changes
nothing else. A section out of its values is refused BAD_FIELD with index 2, a station of AGREEMENT or PRINT_JOB or a
group of SETTINGS out of its values with index 3. The bytes of all twelve sections are spelled, those of STORE below an
id counter of 65536 and those of PRINTER at a printer station (R175, R187). Seven clauses are the model's choice: byte 3
of a section without an argument is ignored and echoed (log 37), the width of the count of OPEN records, the codes of
clock state, flags and marker, and the bytes of no provider record, no print job and no report (log 12), the items of an
interval that is not open (log 48) and of a free slot (log 59) sent as 0, an offer never set read as 0 (log 26), one
byte as stack depth and entry count (log 49), and runs of a fixed length without a count (log 60). -/
def Obligations.StatusReportsASection : Prop :=
  (∀ (f : RxFrame) (s : State), Asks f 3 s →
    let n := byteAt f.payload 2
    let arg := byteAt f.payload 3
    let refused := fun i => exec (.statusQuery f) s = .next (answered f .statusQuery (.refused .badField i) (heard f s))
    let shows := fun contents =>
      exec (.statusQuery f) s = .next (sentTo f.sender .status (f.payload.take 3 ++ contents) (heard f s))
    let flag := fun b => u8 (if b then 1 else 0)
    (∀ contents, sectionOf n arg (heard f s) = .ok contents → shows contents)
    ∧ (∀ i, sectionOf n arg (heard f s) = .error i → refused i)
    ∧ (n = 0 ∨ 12 < n → refused 2)
    ∧ ((n = 7 ∨ n = 10) → 16 ≤ arg → refused 3)
    ∧ (n = 12 → (arg = 0 ∨ 7 < arg) → refused 3)
    ∧ (n = 1 → shows (u8 (if s.survey.running then 1 else 0) ++ u16 s.survey.number ++ u16 s.survey.id
        ++ u32 s.survey.startSeconds ++ u32 (surveyMs s)
        ++ u8 (match s.supply.state with | .normal => 0 | .holdup => 1 | .safe => 2)
        ++ u8 (match s.supply.cause with | .cold => 0 | .supplyReturn => 1 | .pinReset => 2)
        ++ flag s.link.silent))
    ∧ (n = 2 → shows (u8 (if s.sampling.freeRunCount = 4 then 1 else 0)
        ++ u8 (match s.sampling.reference with | none => 0 | some .v1 => 1 | some .v2 => 2 | some .v3 => 3)
        ++ u32 s.sampling.period ++ u16 s.sampling.patchedSets ++ u16 s.sampling.lateSets
        ++ u8 (match s.detector.state with | .held => 0 | .quiet => 1 | .event => 2 | .settle => 3)
        ++ u16 (s.detector.latest.elim 0 LatestEvent.number) ++ u16 (s.detector.nextEvent - 1)
        ++ u16 s.detector.unrecorded
        ++ s.harmonic.interval.elim (List.replicate 21 0) (fun i =>
          u8 1 ++ u32 i.index ++ u32 i.startMs ++ u32 i.valid ++ u32 i.invalid ++ u32 i.event)
        ++ u16 s.harmonic.dropped ++ u16 (s.harmonic.lastInterval.getD 0)))
    ∧ (n = 3 →
        let items : Fin 4 → List Byte := fun i => (slot s i).elim (List.replicate 6 0) fun x =>
          u8 1 ++ u8 (match x.kind with | .ownStart => 0 | .ownEnd => 1 | .companion => 2) ++ u16 x.recId ++ u8 x.total
            ++ u8 x.written
        shows (items 0 ++ items 1 ++ items 2 ++ items 3 ++ u16 s.capture.ownRefused ++ u16 s.capture.displaced))
    ∧ (n = 4 → s.store.idCounter < 65536 →
        let count := fun (k : RecordKind) => u16 (s.store.dir.filter fun e => e.kind == k).length
        shows (u16 s.store.freeCount ++ count .header ++ count .event ++ count .waveformStart ++ count .waveformEnd
          ++ count .companion ++ count .interval ++ count .note ++ count .context
          ++ u8 (s.store.dir.filter fun e => e.open_).length ++ u16 s.store.idCounter ++ flag s.store.writing
          ++ u16 s.store.shed ++ u16 s.store.refused))
    ∧ (n = 5 → shows (u8 s.notes.stack.length ++ s.notes.stack.map (fun c => BitVec.ofNat 8 c)
        ++ u8 s.notes.contexts ++ u16 (s.notes.nextNote - 1)))
    ∧ (n = 6 → shows (u8 s.agreement.list.length
        ++ s.agreement.list.flatMap (fun l => u8 l.position ++ u8 (channelByte l.offer.channels) ++ u8 l.offer.pre
          ++ u8 l.offer.post ++ u8 l.offer.decimation ++ u8 l.offer.rate)
        ++ u16 s.agreement.revision))
    ∧ (∀ st : Station, n = 7 → arg = st.val →
        let r := (peer s st).requester
        shows (u8 (match r.state with | .none => 0 | .noOffer => 1 | .requested => 2 | .active => 3 | .rejected => 4)
          ++ u8 r.position ++ flag r.mismatch ++ u8 r.reason
          ++ (peer s st).provider.elim (List.replicate 9 0) fun p =>
            u8 st.val ++ u8 p.position ++ u32 p.activationMs ++ u8 p.captures ++ u16 p.missed))
    ∧ (n = 8 →
        let c := s.composer
        let kind := match c.request.kind with
          | .site => 1 | .eventList => 2 | .eventDetail => 3 | .harmonicSummary => 4 | .notes => 5
        shows (u8 (match c.state with
            | .idle => 0 | .opening => 1 | .queued => 2 | .sending => 3 | .waitingCredit => 4 | .finishing => 5)
          ++ u16 c.job ++ u8 (if c.job = 0 then 0 else kind) ++ u8 (if c.job = 0 then 0 else c.printer.val)
          ++ u8 (c.queuePosition.getD 0) ++ u8 c.credit ++ u16 c.line ++ flag (!c.paused) ++ u16 c.gone
          ++ u8 c.lastOutcome))
    ∧ (n = 12 →
        let g := s.survey.settings
        let w := g.wants
        (arg = 1 → shows (u8 g.nominal ++ u16 g.declared))
        ∧ (arg = 2 → shows (u16 g.threshold ++ u8 g.hysteresis ++ u16 g.interruption ++ u8 g.settle))
        ∧ (arg = 3 → shows (u8 g.preCycles ++ u8 g.postCycles ++ u8 g.endCycles))
        ∧ (arg = 4 → shows (u8 g.minutes ++ flag g.ring ++ u16 g.holdUp))
        ∧ (arg = 5 → shows (u8 g.offerCount ++ g.offers.toList.flatMap fun o => o.elim (List.replicate 5 0) fun o =>
            u8 ((if o.channels.v1 then 1 else 0) + (if o.channels.v2 then 2 else 0) + (if o.channels.v3 then 4 else 0))
              ++ u8 o.pre ++ u8 o.post ++ u8 o.decimation ++ u8 o.rate))
        ∧ (arg = 6 → shows (flag g.seek ++ flag g.serve ++ u8 w.channels ++ u8 w.pre ++ u8 w.post ++ u8 w.rate
            ++ flag w.decimation2))
        ∧ (arg = 7 → shows (u8 g.bankA ++ u8 g.bankB ++ u8 g.cellWidth ++ flag g.colour ++ u8 g.energy)))
    ∧ (n = 9 → s.pins.straps.prn = true → shows (flag s.printer.ready ++ flag s.pins.paper
        ++ u8 (match s.printer.head with | .idle => 0 | .printing _ => 1 | .feeding _ => 2)
        ++ u8 ((s.printer.queue.find? fun j => j.state != .queued).elim 0 Job.credit) ++ u8 s.printer.buffer.length
        ++ u16 s.printer.linesDiscarded ++ u16 s.printer.linesMissing ++ u16 s.printer.cellsDropped
        ++ u16 s.printer.jobsPrinted ++ u16 s.printer.jobsEnded))
    ∧ (n = 10 → arg < 16 →
        (∀ j, s.printer.queue.find? (fun j => j.origin.val == arg) = some j → shows (u8 arg ++ u16 j.number ++ u8 j.kind
          ++ u8 (match j.state with | .queued => 0 | .active => 1 | .paused => 2) ++ u16 j.received ++ u16 j.printed))
        ∧ (s.printer.queue.find? (fun j => j.origin.val == arg) = none → shows (List.replicate 9 0)))
    ∧ (n = 11 → ∃ present, (∀ st : Station, present.testBit st.val = (st == ownStation s || (peer s st).present))
        ∧ shows (u16 s.link.sent ++ u16 (min 65535 (s.link.received + 1)) ++ u16 s.link.checkFailures
          ++ u16 s.link.badLengths ++ u16 s.link.unknownKinds ++ u16 s.link.bitErrors ++ u16 s.link.arbitrationLosses
          ++ u16 s.link.dropped
          ++ (List.range 6).flatMap (fun p => u8 (s.link.queue.filter fun g => g.kind.priority == p).length)
          ++ u16 present)))
  ∧ ∀ (s : State) (n arg : Nat), sectionOf n arg s = .error 2 ↔ (n = 0 ∨ 12 < n)

/-! ### Companion agreements -/

/-- The two OFFERS timers while a survey runs and the line is not silent: at the expiry of the send limit a waiting
OFFERS is handed over, and both timers start afresh; at the refresh time an OFFERS is handed over, or waits while the
send limit runs. The two timers of a requester record: at the retry time selection runs, and asks for the offer it picks
or tries again 5000 ms later; at the answer time the record is REJECTED with reason SILENT (R116, R118, R119, R120). The
list it picks from is the copy when that is there, not spent, and of the peer's presence revision, and is empty
otherwise. That the model's clock jumps to the expiry is its choice (log 2). -/
def Obligations.AgreementTimersExpire : Prop :=
  (∀ (s : State) (d : Nat), s.powered = true → s.survey.running = true → s.link.silent = false →
      let now := max s.now d
      let frame := newFrame .offers none (u16 s.survey.id ++ u16 s.agreement.revision
        ++ u8 s.agreement.list.length ++ s.agreement.list.flatMap ListedOffer.bytes)
      let sent := { handed frame s with
        now := now
        agreement := { s.agreement with
          pendingOffers := false, sendLimit := some (now + 1000000), refresh := some (now + 10000000) } }
      (s.agreement.sendLimit = some d → s.agreement.pendingOffers = true →
        exec .offersSendLimitExpiry s = .next sent)
      ∧ (s.agreement.sendLimit = some d → s.agreement.pendingOffers = false →
        exec .offersSendLimitExpiry s = .next { s with
          now := now, agreement := { s.agreement with sendLimit := none } })
      ∧ (s.agreement.refresh = some d → (∀ l, s.agreement.sendLimit = some l → l ≤ now) →
        exec .offersRefreshTimer s = .next sent)
      ∧ (∀ l, s.agreement.refresh = some d → s.agreement.sendLimit = some l → now < l →
        exec .offersRefreshTimer s = .next { s with
          now := now, agreement := { s.agreement with pendingOffers := true, refresh := none } }))
  ∧ ∀ (s : State) (st : Station) (d : Nat), s.powered = true → st ≠ ownStation s →
      let now := max s.now d
      let p := peer s st
      let usable := p.copy.elim [] fun c => if p.spent = false ∧ c.revision = p.revision then c.offers else []
      let choice := chooseOffer s.survey.settings.wants usable
      (p.requester.answerTimer = some d →
        exec (.answerTimerExpiry st) s = .next (setPeer st { p with
          requester := { p.requester with
            state := .rejected, reason := 5, retryTimer := some (now + 5000000), answerTimer := none } }
          { s with now := now }))
      ∧ (p.requester.retryTimer = some d → s.link.silent = false → choice = none →
        exec (.retryTimerExpiry st) s = .next (setPeer st { p with
          requester := { p.requester with
            state := .noOffer, retryTimer := some (now + 5000000), answerTimer := none } }
          { s with now := now }))
      ∧ ∀ l mismatch, p.requester.retryTimer = some d → s.link.silent = false → choice = some (l, mismatch) →
        exec (.retryTimerExpiry st) s = .next (setPeer st { p with
          requester := { p.requester with
            state := .requested, position := l.position, revision := p.revision, mismatch := mismatch
            retryTimer := none, answerTimer := some (now + 500000) } }
          (sentTo st .agreeRequest (u16 s.survey.id ++ u8 l.position ++ u16 p.revision) { s with now := now }))

/-- Selection: the first entry that meets every minimum of the want spec, which counts channels, pre, post and rate and
takes decimation 2 only where it is acceptable; failing that, with mismatch, the entry with channels and decimation that
will do and the greatest pre + post, the earliest of equals; failing that, the first entry, with mismatch; nothing from
an empty list (R119). -/
def Obligations.SelectionPicksByTheWantSpec : Prop :=
  ∀ (w : Wants) (ls : List ListedOffer),
    let nearly := fun o : Offer =>
      let count := (if o.channels.v1 then 1 else 0) + (if o.channels.v2 then 1 else 0) + (if o.channels.v3 then 1 else 0)
      w.channels ≤ count ∧ (o.decimation = 1 ∨ o.decimation = 2 ∧ w.decimation2 = true)
    let meets := fun o : Offer => nearly o ∧ w.pre ≤ o.pre ∧ w.post ≤ o.post ∧ w.rate ≤ o.rate
    (chooseOffer w ls = none ↔ ls = [])
    ∧ (∀ l, chooseOffer w ls = some (l, false) ↔
        ∃ before after, ls = before ++ l :: after ∧ meets l.offer
          ∧ ∀ m ∈ before, ¬meets m.offer)
    ∧ ∀ l, chooseOffer w ls = some (l, true) →
        (∀ m ∈ ls, ¬meets m.offer)
        ∧ ((∃ m ∈ ls, nearly m.offer) →
            ∃ before after, ls = before ++ l :: after ∧ nearly l.offer
              ∧ (∀ m ∈ before, nearly m.offer →
                  m.offer.pre + m.offer.post < l.offer.pre + l.offer.post)
              ∧ ∀ m ∈ after, nearly m.offer →
                  m.offer.pre + m.offer.post ≤ l.offer.pre + l.offer.post)
        ∧ ((∀ m ∈ ls, ¬nearly m.offer) → ls.head? = some l)

/-- TRIGGER_NOTICE: it is counted in the open interval. With no agreement provided to its sender it changes nothing
more, but a peer of the same survey is told NOT_HELD while offers are open. Under an agreement, a notice seen before
changes nothing more. One of another survey, past the hourly rate, or refused a companion capture for want of a survey,
of a slot, of cycles, of blocks or of an id, is missed and counted. With a slot, cycles and blocks, free or held by
closed companions that nothing holds, a COMPANION record is made with the next id: as few of those companions as give
room beside the reserve are shed first, by ascending id, each counted, and no other record. Its span is placed as R55
says: the cycles wanted around the origin's opening cycle, estimated from the age, less those older than the ring; with
none left there is no capture. It carries its origin, its capture takes the lowest free slot unless the ring holds all
its cycles, and it counts toward the hour (R51, R54, R55, R72, R81, R85 to R88, R117, R125). Two clauses are the model's
reading: the companion's first cycle may be one that has not started (log 35), and a peer is another recorder station
(log 24). -/
def Obligations.NoticeIsServedUnderAnAgreement : Prop :=
  ∀ (f : RxFrame) (s : State), Reaches f s → f.payload.length = 8 →
    let id := u16At f.payload 1
    let event := u16At f.payload 3
    let origin := peer s f.sender
    let noted := { heard f s with harmonic := { s.harmonic with
      interval := s.harmonic.interval.map fun i => { i with notices := min 65535 (i.notices + 1) } } }
    (origin.provider = none →
      exec (.triggerNotice f) s = .next (
        if f.sender.val < 8 ∧ origin.present = true ∧ origin.running = true ∧ s.survey.running = true
            ∧ origin.surveyId = s.survey.id ∧ id = s.survey.id ∧ s.survey.settings.serve = true
            ∧ s.agreement.list ≠ [] then
          sentTo f.sender .agreeEnd [0, 0, 3] noted
        else noted))
    ∧ ∀ p, origin.provider = some p →
      let hours := (surveyMs s - p.hourStart) / 3600000
      let fresh := if 3600000 ≤ surveyMs s - p.hourStart then 0 else p.captures
      let taken : Provider := { p with
        lastNotice := some (id, event), hourStart := p.hourStart + 3600000 * hours, captures := fresh }
      let missed := setPeer f.sender
        { peer noted f.sender with provider := some { taken with missed := min 65535 (p.missed + 1) } } noted
      let placed := companionSpan s (byteAt f.payload 5) p.offer.pre p.offer.post
      (p.lastNotice = some (id, event) → exec (.triggerNotice f) s = .next noted)
      ∧ (p.lastNotice ≠ some (id, event) → (id ≠ s.survey.id ∨ p.offer.rate ≤ fresh ∨ s.survey.running = false
          ∨ s.supply.state = .safe ∨ (∀ i, slot s i ≠ none) ∨ placed = none) →
        exec (.triggerNotice f) s = .next missed)
      ∧ ∀ k place, p.lastNotice ≠ some (id, event) → id = s.survey.id → fresh < p.offer.rate →
        s.survey.running = true → s.supply.state ≠ .safe → freeSlot s = some k → placed = some place →
        let total := place.2.1 + place.2.2.1
        let blocks := channelCount p.offer.channels * regionBlocks p.offer.decimation total
        let loose := s.store.dir.filter fun e => e.kind == .companion && !e.open_ && !e.hold
        (65536 ≤ s.store.idCounter ∨ s.store.freeCount + (loose.map fun e => e.chain.length).sum < blocks + 8 →
          exec (.triggerNotice f) s = .next { missed with
            store := { s.store with refused := min 65535 (s.store.refused + 1) } })
        ∧ (StoreLaw s → s.store.idCounter < 65536 →
          blocks + 8 ≤ s.store.freeCount + (loose.map fun e => e.chain.length).sum →
          let room := fun n => blocks + 8 ≤ s.store.freeCount + ((loose.take n).map fun e => e.chain.length).sum
          ∃ t e d n, exec (.triggerNotice f) s = .next t ∧ t.store.idCounter = s.store.idCounter + 1
            ∧ n ≤ loose.length ∧ room n ∧ (∀ m, m < n → ¬room m)
            ∧ t.store.shed = (if n = 0 then s.store.shed else min 65535 (s.store.shed + n))
            ∧ t.store.refused = s.store.refused
            ∧ (∀ x ∈ loose.take n, findEntry t x.id = none)
            ∧ (∀ x ∈ s.store.dir, x ∉ loose.take n → findEntry t x.id = some x)
            ∧ findEntry t s.store.idCounter = some e ∧ e.kind = .companion
            ∧ e.chain = (s.store.free ++ (loose.take n).flatMap Entry.chain).take blocks
            ∧ e.survey = s.survey.number ∧ e.time = surveyMs s ∧ e.parent = none ∧ e.desc = some d
            ∧ d.origin = some { station := f.sender, surveyId := id, event := event, arrivalMs := surveyMs s
                                age := byteAt f.payload 5 }
            ∧ d.firstCycle = place.1 ∧ d.preTaken = place.2.1 ∧ d.postTaken = place.2.2.1 ∧ d.clipped = place.2.2.2
            ∧ d.total = total ∧ d.wanted = p.offer.pre + p.offer.post
            ∧ d.channels = p.offer.channels ∧ d.decimation = p.offer.decimation
            ∧ t.harmonic = noted.harmonic
            ∧ t.capture = { s.capture with slots := t.capture.slots, openOrder := s.capture.openOrder + 1 }
            ∧ (∀ i, i ≠ k → slot t i = slot s i)
            ∧ (RingBefore s (cycleInProgress s) →
                let held := cycleInProgress s - place.1
                d.written = min held total ∧ e.open_ = decide (held < total)
                ∧ slot t k = if held < total then some {
                    kind := .companion, recId := s.store.idCounter, parent := none, first := place.1, total := total
                    written := held, channels := p.offer.channels, decimation := p.offer.decimation
                    reserved := blocks - channelCount p.offer.channels * regionBlocks p.offer.decimation held
                    order := s.capture.openOrder + 1 } else none)
            ∧ ∀ q, (peer t f.sender).provider = some q → q = { taken with captures := fresh + 1 })

/-- OFFERS of a peer: the list copy, the survey items and the revision are taken and the copy is unspent; a peer that
comes into the same survey, sought, is asked or waits; of one already in it, a record in NO_OFFER or REJECTED, or ACTIVE
on a position no longer listed, selects anew, and any other stands; only this peer's entry and the transmit queue
change (R117, R118, R119, R120, R122). Two clauses are the model's reading: an OFFERS of a console is only heard
(log 24), and a record that ends reads as a fresh one (log 39). -/
def Obligations.OffersAreTakenFromAPeer : Prop :=
  ∀ (f : RxFrame) (s : State), Reaches f s → offersLength f.payload = true →
    (8 ≤ f.sender.val → exec (.offers f) s = .next (heard f s))
    ∧ (f.sender.val < 8 → ∃ t, exec (.offers f) s = .next t
      ∧ t = { s with peers := t.peers, link := t.link }
      ∧ (∀ st, st ≠ f.sender → peer t st = peer s st)
      ∧ (peer t f.sender).running = true ∧ (peer t f.sender).surveyId = u16At f.payload 1
      ∧ (peer t f.sender).revision = u16At f.payload 3 ∧ (peer t f.sender).lastHeard = s.now
      ∧ (peer t f.sender).copy = some { revision := u16At f.payload 3, offers := listOf f.payload }
      ∧ (peer t f.sender).spent = false ∧ (peer t f.sender).present = (peer s f.sender).present
      ∧ (sameSurvey s f.sender = false → sameSurvey t f.sender = true →
          s.survey.settings.seek = true → s.link.silent = false →
          (peer t f.sender).requester.state = if (listOf f.payload).isEmpty then .noOffer else .requested)
      ∧ (sameSurvey s f.sender = true → u16At f.payload 1 = s.survey.id →
        let r := (peer s f.sender).requester
        let selects := s.link.silent = false ∧ (r.state = .noOffer ∨ r.state = .rejected
          ∨ r.state = .active ∧ r.position ∉ (listOf f.payload).map ListedOffer.position)
        let choice := chooseOffer s.survey.settings.wants (listOf f.payload)
        (peer t f.sender).provider = (peer s f.sender).provider
        ∧ (¬selects → (peer t f.sender).requester = r ∧ t.link = (heard f s).link)
        ∧ (selects → choice = none → t.link = (heard f s).link ∧ (peer t f.sender).requester = { r with
            state := .noOffer, retryTimer := some (s.now + 5000000), answerTimer := none })
        ∧ ∀ c, selects → choice = some c →
          t.link = (sentTo f.sender .agreeRequest
            (u16 s.survey.id ++ u8 c.1.position ++ u16 (u16At f.payload 3)) (heard f s)).link
          ∧ (peer t f.sender).requester = { r with
              state := .requested, position := c.1.position, revision := u16At f.payload 3, mismatch := c.2
              retryTimer := none, answerTimer := some (s.now + 500000) })
      ∧ (sameSurvey s f.sender = true → sameSurvey t f.sender = false →
          (peer t f.sender).requester = Requester.none ∧ (peer t f.sender).provider = none))

/-- AGREE_REQUEST of a recorder station, checked in the order of R123: accepted, it fills the provider record with the
offer of its position and is answered AGREE_ACCEPT; otherwise it is answered AGREE_REJECT with the first reason that
holds, STALE making an OFFERS due as well. One of a station 8 to 15 is only heard (R116, R123, R124). -/
def Obligations.AgreeRequestIsJudgedInOrder : Prop :=
  (∀ (f : RxFrame) (s : State), Reaches f s → f.payload.length = 5 → 8 ≤ f.sender.val →
    exec (.agreeRequest f) s = .next (heard f s))
  ∧ ∀ (f : RxFrame) (s : State), Reaches f s → f.payload.length = 5 → f.sender.val < 8 →
    let position := byteAt f.payload 3
    let revision := u16At f.payload 4
    let together := s.survey.running = true ∧ (peer s f.sender).present = true
      ∧ (peer s f.sender).running = true ∧ u16At f.payload 1 = s.survey.id
    let serving := s.survey.settings.serve = true ∧ s.link.silent = false
    let offer := s.agreement.list.find? fun l => l.position == position
    let refusal := fun (code : Nat) =>
      sentTo f.sender .agreeReject (u8 position ++ u16 revision ++ u8 code) (heard f s)
    (¬together → exec (.agreeRequest f) s = .next (refusal 1))
    ∧ (together → ¬serving → exec (.agreeRequest f) s = .next (refusal 2))
    ∧ (together → serving → revision ≠ s.agreement.revision →
        exec (.agreeRequest f) s = .next (offersDue (refusal 3)))
    ∧ (together → serving → revision = s.agreement.revision → offer = none →
        exec (.agreeRequest f) s = .next (refusal 4))
    ∧ ∀ l, together → serving → revision = s.agreement.revision → offer = some l →
        exec (.agreeRequest f) s = .next (sentTo f.sender .agreeAccept (u8 position ++ u16 revision ++ l.offer.bytes)
          (setPeer f.sender { peer (heard f s) f.sender with provider := some {
              position := position, offer := l.offer, activationMs := surveyMs s, hourStart := surveyMs s
              captures := 0, missed := 0, lastNotice := none } } (heard f s)))

/-- The answers to a request, and the ends of an agreement. AGREE_ACCEPT and AGREE_REJECT count only for the position
and revision last asked; AGREE_END GIVEN_BACK spends the list copy and seeks again, SURVEY_END ends the record, NOT_HELD
seeks again, and one from a requester frees the provider record it names. Nothing but that peer's record changes (R118,
R121, R122, R127). Two clauses are the model's reading: a record that ends reads as a fresh one (log 39), and the reason
of an AGREE_END from a requester is not looked at (log 42). -/
def Obligations.AgreementAnswersAreTaken : Prop :=
  ∀ (f : RxFrame) (s : State), Reaches f s →
    let r := (peer s f.sender).requester
    let p := peer (heard f s) f.sender
    let become := fun (q : Peer) => Host.Outcome.next (setPeer f.sender q (heard f s))
    let waits := { r with state := .noOffer, retryTimer := some (s.now + 5000000), answerTimer := none }
    let named := r.position = byteAt f.payload 1 ∧ r.revision = u16At f.payload 2
    (f.payload.length = 8 → named → (r.state = .requested ∨ r.state = .rejected ∧ r.reason = 5) →
      exec (.agreeAccept f) s = become { p with requester := { r with
        state := .active, offer := some (Offer.ofBytes f.payload 4), activationMs := surveyMs s
        retryTimer := none, answerTimer := none } })
    ∧ (f.payload.length = 8 → ¬(named ∧ (r.state = .requested ∨ r.state = .rejected ∧ r.reason = 5)) →
      exec (.agreeAccept f) s = .next (heard f s))
    ∧ (f.payload.length = 4 → named → r.state = .requested →
      exec (.agreeReject f) s = become { p with requester := { r with
        state := .rejected, reason := byteAt f.payload 4, retryTimer := some (s.now + 5000000)
        answerTimer := none } })
    ∧ (f.payload.length = 4 → ¬(named ∧ r.state = .requested) →
      exec (.agreeReject f) s = .next (heard f s))
    ∧ (f.payload.length = 3 → byteAt f.payload 2 = 0 → r.state = .active → byteAt f.payload 3 = 1 →
      r.position = byteAt f.payload 1 →
      exec (.agreeEnd f) s = become { p with spent := true, requester := waits })
    ∧ (f.payload.length = 3 → byteAt f.payload 2 = 0 → r.state = .active → byteAt f.payload 3 = 2 →
      exec (.agreeEnd f) s = become { p with requester := Requester.none })
    ∧ (f.payload.length = 3 → byteAt f.payload 2 = 0 → r.state = .active → byteAt f.payload 3 = 3 →
      exec (.agreeEnd f) s = become { p with requester := waits })
    ∧ (f.payload.length = 3 → byteAt f.payload 2 = 0 → r.state ≠ .active →
      exec (.agreeEnd f) s = .next (heard f s))
    ∧ ∀ q, f.payload.length = 3 → byteAt f.payload 2 = 1 → p.provider = some q →
      exec (.agreeEnd f) s = if q.position = byteAt f.payload 1 then become { p with provider := none }
        else .next (heard f s)

/-! ### The Survey Link -/

/-- A frame handed to a queue in priority order: a PRESENCE takes the place of a waiting PRESENCE, or it joins behind
every frame of its priority, or displaces the newest waiting frame of the greatest priority number when that is greater
than its own, or is dropped and counted; a silent station drops it. The answer says whether the queue took it (R171,
R172). Two clauses are the model's choice: a silent station counts what it drops (log 27), and of two waiting PRESENCE
the newer gives way (log 58). -/
def Obligations.QueuePlacesAFrame : Prop :=
  ∀ (l : Link) (f : TxFrame), l.queue.Pairwise (fun a b => a.kind.priority ≤ b.kind.priority) →
    let more := min 65535 (l.dropped + 1)
    let joins := fun (q : List TxFrame) (r : List TxFrame) => ∃ before after, q = before ++ after
      ∧ r = before ++ f :: after ∧ (∀ g ∈ before, g.kind.priority ≤ f.kind.priority)
      ∧ ∀ g ∈ after, f.kind.priority < g.kind.priority
    let replaces := f.kind = .presence ∧ ∃ g ∈ l.queue, g.kind = .presence ∧ g.inTx = false
    let gives := ∃ g ∈ l.queue, g.inTx = false ∧ f.kind.priority < g.kind.priority
    (l.silent = true → l.handOver f = ({ l with dropped := more }, false))
    ∧ (l.silent = false → replaces → ∃ a g b, l.queue = a ++ g :: b ∧ g.kind = .presence ∧ g.inTx = false
        ∧ (∀ h ∈ b, h.kind = .presence → h.inTx = true)
        ∧ l.handOver f = ({ l with queue := a ++ f :: b }, true))
    ∧ (l.silent = false → ¬replaces → l.queue.length < 16 → ∃ q, joins l.queue q
        ∧ l.handOver f = ({ l with queue := q }, true))
    ∧ (l.silent = false → ¬replaces → 16 ≤ l.queue.length → gives → ∃ a g b q, l.queue = a ++ g :: b
        ∧ g.inTx = false ∧ f.kind.priority < g.kind.priority ∧ (∀ h ∈ b, h.inTx = true)
        ∧ (∀ h ∈ l.queue, h.inTx = false → h.kind.priority ≤ g.kind.priority)
        ∧ joins (a ++ b) q ∧ l.handOver f = ({ l with queue := q, dropped := more }, true))
    ∧ (l.silent = false → ¬replaces → 16 ≤ l.queue.length → ¬gives →
        l.handOver f = ({ l with dropped := more }, false))

/-- TRANSMIT_ATTEMPT takes the first frame that is not held back, stamps the age into a notice, 0 once the windows have
been renumbered, and drives its bits: start, priority, sender, kind, broadcast, destination, length, payload and check
byte in that order, each field most significant bit first and stuffed, then ten close bits unstuffed, the check byte the
value of R166 over the bits from the kind to the payload; in HOLDUP and SAFE frames of priority 4 and 5 are held back. A
lost arbitration and a bit error leave the frame in its place and are counted; a frame sent leaves the queue and is
counted. With no frame to take, or none in transmission, nothing happens but the end of the wait for a free line (R26,
R165 to R168, R171; 12.1). That an attempt ends that wait is the model's reading (log 28). -/
def Obligations.AttemptsBeginAndEnd : Prop :=
  (∀ s : State, s.powered = true →
      let free := { s with link := { s.link with waitFree := none } }
      let held := fun (g : TxFrame) => s.supply.state ≠ .normal ∧ 4 ≤ g.kind.priority
      (isSending s.link = true → exec .transmitAttempt s = .next free)
      ∧ (isSending s.link = false → (∀ g ∈ s.link.queue, held g) → exec .transmitAttempt s = .next free)
      ∧ ∀ before g after, isSending s.link = false → s.link.queue = before ++ g :: after →
          (∀ h ∈ before, held h) → ¬held g →
          let sent := { g with
            inTx := true
            payload := if g.kind = .triggerNotice then
                patchBytes g.payload 5 (u8 (match g.openingWindow with
                  | none => 0
                  | some w => min 255 (s.sampling.latestWindow - w)))
              else g.payload }
          exec .transmitAttempt s = .next { s with link := { s.link with
            waitFree := none, queue := before ++ sent :: after, txBits := frameBits (ownStation s) sent } })
  ∧ (∀ (own : Station) (g : TxFrame),
      let kind := frameKinds.idxOf g.kind
      let covered := coveredBits (kind + 1) g.dest.isNone (g.dest.elim 0 Fin.val) g.payload.length g.payload
      let body := [false] ++ fieldBits 3 (kindPriorities.getD kind 0) ++ fieldBits 4 own.val ++ covered
        ++ fieldBits 8 (checkValue covered)
      ∃ levels, StuffedAs body levels ∧ frameBits own g = levels ++ List.replicate 10 true)
  ∧ (∀ body, StuffedAs body (stuffBits true 0 body)) ∧ (∀ bits, (crc8 bits).toNat = checkValue bits)
  ∧ ∀ s : State, s.powered = true →
      let waiting := s.link.queue.map fun g => { g with inTx := false }
      (isSending s.link = true →
        exec .arbitrationLoss s = .next { s with link := { s.link with
          queue := waiting, txBits := [], arbitrationLosses := min 65535 (s.link.arbitrationLosses + 1) } }
        ∧ exec .bitErrorAbort s = .next { s with link := { s.link with
          queue := waiting, txBits := [], bitErrors := min 65535 (s.link.bitErrors + 1) } }
        ∧ exec .frameSent s = .next { s with link := { s.link with
          queue := s.link.queue.filter (fun g => !g.inTx), txBits := [], sent := min 65535 (s.link.sent + 1) } })
      ∧ (isSending s.link = false → exec .arbitrationLoss s = .next s ∧ exec .bitErrorAbort s = .next s
          ∧ exec .frameSent s = .next s)

/-- Judging a frame. FRAME_DISCARDED, on the bits of a frame as R165 stuffs them, raises the counter of the first step
that fails and leaves no other trace but the wait for a free line, which ten recessive bits in a row end; the bits of a
good frame are not discarded; six equal bits within the stuffed part, or a frame that ends short, are a check failure. A
receiver that waits takes no frame for one before the line is free. ANSWER, STATUS and FETCH_DATA of the right length
are counted and change nothing more, and a frame of any kind but a request with a length its layout does not have is
discarded and counted bad by the block that takes it; a JOB_OPEN, PRINT_LINE or JOB_CANCEL at a station not strapped
PRN, or from a station numbered 8 to 15, is ignored whatever its length. A request sent to all is heard and not
answered; one shorter or longer than its kind needs is refused BAD_FIELD with the index of the first byte missing or in
excess, SURVEY_SET by the rule of SurveySetWritesTheFields (R147, R165, R166, R168, R169, R174, R187). That
FRAME_DISCARDED brings the bits, that the wait for a free line follows every discard, and that a good frame's own row
delivers it, is the model's reading (log 28), and so is that the length of a request is judged before every check of its
own chapter, whatever the state (log 32). -/
def Obligations.FramesAreJudgedAndCounted : Prop :=
  (∀ (s : State) (priority : Nat) (sender dest : Station) (kind : BitVec 5) (broadcast : Bool) (length check : Byte)
      (payload : List Byte) (tail : List Bool),
    s.powered = true → (length.toNat ≤ 120 → payload.length = length.toNat) →
    let checked := checkedBits kind.toNat broadcast dest.val length.toNat payload
    let line := stuffBits true 0
      ([false] ++ bitsOf 3 priority ++ bitsOf 4 sender.val ++ checked ++ bitsOf 8 check.toNat) ++ tail
    let free := List.replicate 10 true
    let waits := fun (w : Option Nat) => (tail = [] → w.isSome = true) ∧ (free <+: tail → w = none)
    (s.link.waitFree = none →
      (120 < length.toNat → ∃ w, exec (.frameDiscarded line) s = .next { s with link := { s.link with
        waitFree := w, badLengths := min 65535 (s.link.badLengths + 1) } })
      ∧ (length.toNat ≤ 120 → check ≠ crc8 checked → ∃ w, waits w ∧
        exec (.frameDiscarded line) s = .next { s with link := { s.link with
          waitFree := w, checkFailures := min 65535 (s.link.checkFailures + 1) } })
      ∧ (length.toNat ≤ 120 → check = crc8 checked → (kind = 0 ∨ kind = 31) → ∃ w, waits w ∧
        exec (.frameDiscarded line) s = .next { s with link := { s.link with
          waitFree := w, unknownKinds := min 65535 (s.link.unknownKinds + 1) } })
      ∧ (length.toNat ≤ 120 → check = crc8 checked → kind ≠ 0 → kind ≠ 31 →
        exec (.frameDiscarded line) s = .next s))
    ∧ ∀ n, s.link.waitFree = some n → n < 10 →
      (tail = [] → ∃ m, m < 10 ∧
        exec (.frameDiscarded line) s = .next { s with link := { s.link with waitFree := some m } })
      ∧ exec (.frameDiscarded (free ++ line)) s
          = exec (.frameDiscarded line) { s with link := { s.link with waitFree := none } })
  ∧ (∀ (s : State) (start : List Bool) (b : Bool) (tail : List Bool), s.powered = true → s.link.waitFree = none →
      let failed := fun (w : Option Nat) => { s with link := { s.link with
        waitFree := w, checkFailures := min 65535 (s.link.checkFailures + 1) } }
      (start.length ≤ 19 → ∃ w, exec (.frameDiscarded
          (stuffBits true 0 (false :: start) ++ List.replicate 6 b ++ tail)) s = .next (failed w))
      ∧ (start.length ≤ 24 → ∃ w, w.isSome = true ∧
          exec (.frameDiscarded (stuffBits true 0 (false :: start))) s = .next (failed w)))
  ∧ (∀ (f : RxFrame) (s : State), Reaches f s →
    let bad := { heard f s with link := { (heard f s).link with badLengths := min 65535 (s.link.badLengths + 1) } }
    exec (.answer f) s = .next (if f.payload.length = 9 then heard f s else bad)
    ∧ exec (.status f) s = .next (if 3 ≤ f.payload.length then heard f s else bad)
    ∧ exec (.fetchData f) s = .next (if 2 ≤ f.payload.length ∧ f.payload.length ≤ 98 then heard f s else bad)
    ∧ (f.broadcast = true → exec (.surveySet f) s = .next (heard f s)))
  ∧ ∀ (i : Instr) (s : State),
    let found := fun f : RxFrame => if runsLoopback i then noLoopback (heard f s) else heard f s
    (∀ f, fitsLayout i = some (f, false) → blockTakes i s = true → Reaches f s → exec i s = .next { found f with
      link := { (found f).link with badLengths := min 65535 (s.link.badLengths + 1) } })
    ∧ (∀ f, frameOf i = some f → blockTakes i s = false → Reaches f s → exec i s = .next (found f))
    ∧ ∀ f kind need, requestNeed i = some (f, kind, need) → Reaches f s →
      let length := f.payload.length
      let refused := fun index => exec i s = .next (answered f kind (.refused .badField index) (found f))
      (f.broadcast = true → exec i s = .next (found f))
      ∧ (f.broadcast = false → length < need → refused (length + 1))
      ∧ (f.broadcast = false → need < length → refused (need + 1))

/-- A frame for another station renews its sender's last-heard time and ends the wait for a free line. A frame for this
one that bears its own number as sender sets LINK_SILENT: the transmit queue is emptied, a frame in transmission
abandoned, the open-offer list empty, every agreement ended; the frame is delivered to no block (R128, R169, R172). Two
clauses are the model's reading: the end of that wait (log 28), and a record that ends reads as a fresh one (log 39). -/
def Obligations.OwnNumberSilencesTheStation : Prop :=
  ∀ (i : Instr) (f : RxFrame) (s : State), frameOf i = some f → s.powered = true → f.payload.length ≤ 120 →
    (¬IsForUs f s → exec i s = .next (setPeer f.sender { peer s f.sender with lastHeard := s.now }
      { s with link := { s.link with waitFree := none } }))
    ∧ (IsForUs f s → f.sender = ownStation s → ∃ t, exec i s = .next t
      ∧ t.link.silent = true ∧ t.link.queue = [] ∧ t.link.txBits = [] ∧ t.agreement.list = []
      ∧ (∀ st, (peer t st).requester = Requester.none ∧ (peer t st).provider = none)
      ∧ t.link.received = s.link.received
      ∧ t = { s with link := t.link, agreement := t.agreement, peers := t.peers })

/-- The entry for this station's own number reads present, with its own survey state and id, revision, printer and
paper. PRESENCE_TIMER hands over a broadcast PRESENCE with the items as they stand and runs again 1000 ms after its
time. PRESENCE makes its sender present with the items it carries and touches no other station's entry; a peer that
becomes present makes an OFFERS due. A peer whose items bring it into the same survey starts with a requester record in
NO_OFFER and its retry timer of 5000 ms when the seek flag is on, in NONE otherwise, and with a free provider record;
one whose items take it out of it loses both records; any other keeps them (R116, R117, R118, R173). Five clauses are
the model's choice: the own entry follows this station's values at once (log 65), its clock jumps to the timer's time
(log 2), a survey state other than 0 and 1 reads as STANDBY (log 23), a record that ends reads as a fresh one (log 39),
and a provider record accepted before its peer came into the same survey is freed then, and stands until then (log 51).
-/
def Obligations.PresenceIsSentAndTaken : Prop :=
  (∀ (s : State) (st : Station), let own := peerEntry s (ownStation s)
    own.present = true ∧ own.running = s.survey.running
    ∧ own.surveyId = (if s.survey.running then s.survey.id else 0) ∧ own.revision = s.agreement.revision
    ∧ own.printer = s.pins.straps.prn ∧ own.paper = (s.pins.straps.prn && s.pins.paper)
    ∧ (st ≠ ownStation s → peerEntry s st = peer s st)
    ∧ isPresent s st = (peerEntry s st).present
    ∧ choosePrinter s (some st) = (if (peerEntry s st).present && (peerEntry s st).printer then some st else none))
  ∧ (∀ s : State, s.powered = true →
    let paper := s.pins.straps.prn && s.pins.paper
    exec .presenceTimer s = .next { s with
      now := max s.now s.link.presenceTimer
      link := (Link.handOver { s.link with presenceTimer := s.link.presenceTimer + 1000000 }
        (newFrame .presence none
          ([if s.survey.running then 1 else 0] ++ u16 (if s.survey.running then s.survey.id else 0)
            ++ u16 s.store.freeCount ++ u16 s.agreement.revision
            ++ u8 ((if s.pins.straps.prn then 1 else 0) + (if paper then 2 else 0))
            ++ u8 s.supply.state.code ++ u8 s.supply.cause.code))).1 })
  ∧ ∀ (f : RxFrame) (s : State), Reaches f s → f.payload.length = 10 →
    ∃ t, exec (.presence f) s = .next t
      ∧ t = { s with peers := t.peers, link := t.link, agreement := t.agreement }
      ∧ (∀ st, st ≠ f.sender → peer t st = peer s st)
      ∧ (peer t f.sender).present = true ∧ (peer t f.sender).lastHeard = s.now
      ∧ (peer t f.sender).running = decide (byteAt f.payload 1 = 1)
      ∧ (peer t f.sender).surveyId = u16At f.payload 2 ∧ (peer t f.sender).revision = u16At f.payload 6
      ∧ (peer t f.sender).printer = bitAt f.payload 8 0 ∧ (peer t f.sender).paper = bitAt f.payload 8 1
      ∧ (peer t f.sender).copy = (peer s f.sender).copy
      ∧ ((peer s f.sender).present = true → t.agreement = s.agreement ∧ t.link = (heard f s).link)
      ∧ ((peer s f.sender).present = false → f.sender.val < 8 → s.survey.running = true → s.link.silent = false →
          (∀ d, s.agreement.sendLimit = some d → d ≤ s.now) →
          t.agreement.sendLimit = some (s.now + 1000000))
      ∧ (sameSurvey s f.sender = true → sameSurvey t f.sender = false →
          (peer t f.sender).requester = Requester.none ∧ (peer t f.sender).provider = none)
      ∧ (sameSurvey s f.sender = false → sameSurvey t f.sender = true →
          (peer t f.sender).provider = none
          ∧ (peer t f.sender).requester = if s.survey.settings.seek then
              { Requester.none with state := .noOffer, retryTimer := some (s.now + 5000000) } else Requester.none)
      ∧ (sameSurvey t f.sender = sameSurvey s f.sender →
          (peer t f.sender).requester = (peer s f.sender).requester
          ∧ (peer t f.sender).provider = (peer s f.sender).provider)
      ∧ (sameSurvey t f.sender = true ↔ f.sender.val < 8 ∧ byteAt f.payload 1 = 1 ∧ s.survey.running = true
          ∧ u16At f.payload 2 = s.survey.id)

/-- PEER_ABSENT of a present station: its entry reads absent with its PRESENCE items and its list copy cleared, the
records toward a station of the same survey end, a report at its printer ends PRINTER_LOST, and the print job from it is
gone; the other stations' entries stand (R117, R139, R156, R173). Two clauses are the model's choice: its clock jumps to
the time of absence (log 2), and a record that ends reads as a fresh one (log 39). -/
def Obligations.AbsentStationIsForgotten : Prop :=
  ∀ (s : State) (st : Station), s.powered = true → st ≠ ownStation s → (peer s st).present = true →
    ∃ t, exec (.peerAbsent st) s = .next t
      ∧ t.now = max s.now ((peer s st).lastHeard + 3500000)
      ∧ (peer t st).present = false ∧ (peer t st).running = false ∧ (peer t st).surveyId = 0
      ∧ (peer t st).revision = 0 ∧ (peer t st).printer = false ∧ (peer t st).paper = false
      ∧ (peer t st).copy = none ∧ (peer t st).spent = false
      ∧ (sameSurvey s st = true → (peer t st).requester = Requester.none ∧ (peer t st).provider = none)
      ∧ (∀ other, other ≠ st → peer t other = peer s other)
      ∧ (s.composer.state ≠ .idle → s.composer.printer = st →
          t.composer.state = .idle ∧ t.composer.lastOutcome = 8 ∧ t.composer.credit = 0)
      ∧ (s.pins.straps.prn = true → jobFrom t st = none)
      ∧ t.sampling = s.sampling ∧ t.detector = s.detector ∧ t.capture = s.capture ∧ t.harmonic = s.harmonic
      ∧ t.survey = s.survey ∧ t.agreement = s.agreement ∧ t.store.mem = s.store.mem ∧ t.supply = s.supply

/-! ### Reports -/

/-- REPORT_REQUEST is judged in the order of R131: a field out of its values, a report under way, no such survey, no
such event, no such printer; the first that holds refuses it, BAD_FIELD with the index of its field and the others with
index 0, and changes nothing. One in IDLE whose survey, event and printer exist is accepted: the report is OPENING under
the next job number with its render settings and the id and start seconds of the survey's header record, nothing yet
sent or gone, the printer asked by JOB_OPEN within 1000 ms, and every record of its set is held, no other record's hold
changing. The set of an event list and of a harmonic summary is every event and every interval of the survey in the time
range; JOB_OPEN carries the line estimate of R134. A report for this station's own printer has the same job (R91, R131
to R135, R141). Three clauses are the model's: a from ms above the to ms is refused with the index of the from ms, by
choice (log 52), the JOB_OPEN is handed over before the ANSWER (log 43), and the composer keeps the survey's id and
start seconds from the acceptance on (log 22). -/
def Obligations.ReportRequestOpensAReport : Prop :=
  (∀ (f : RxFrame) (s : State) (failed : Bool) (reason : Reason) (index : Nat), Asks f 17 s →
    (reportChecks f.payload s).find? Prod.fst = some (failed, reason, index) →
    exec (.reportRequest f) s = .next
      (answered f .reportRequest (.refused reason index) (noLoopback (heard f s))))
  ∧ ∀ (f : RxFrame) (s : State) (q : ReportRequest) (h : Entry) (st : Station), Asks f 17 s →
    requestOf f.payload = .ok q →
    (s.composer.state = .idle → requestHeader s q.survey = some h →
      (q.kind = .eventDetail → (findEvent s h.survey q.event).isSome = true) →
      choosePrinter s q.printer = some st →
      let job := if s.composer.job = 65535 then 1 else s.composer.job + 1
      let colour := match q.colour with
        | .asSet => if s.survey.settings.colour then 1 else 0
        | .off => 0
        | .on => 1
      let g := s.survey.settings
      let ranged := fun (kind : RecordKind) =>
        (recordsOf s kind h.survey).filter fun e => decide (q.fromMs ≤ e.time) && decide (e.time ≤ q.toMs)
      let attached := fun (e : Entry) => if q.notes = true then
          ((recordsOf s .note h.survey).filter fun n =>
            u16At (recordBytes s n) 10 == u16At (recordBytes s e) 1).length
        else 0
      let estimate := min 65535 (match q.kind with
        | .site => 4 + 15 + (recordsOf s .context h.survey).length
        | .eventList => 4 + 2 + (ranged .event).length + 3 * ((ranged .event).map attached).sum
        | .eventDetail => 4 + 16 + 4 * (findEvent s h.survey q.event).elim 0 attached
        | .harmonicSummary => 4 + 2 + 75
        | .notes => 4 + 4 * (ranged .note).length)
      ∃ t, exec (.reportRequest f) s = .next t
        ∧ t.composer.job = job ∧ t.composer.request = q ∧ t.composer.survey = h.survey ∧ t.composer.printer = st
        ∧ t.composer.surveyId = u16At (recordBytes s h) 3 ∧ t.composer.startSeconds = u32At (recordBytes s h) 5
        ∧ t.composer.render =
            { bankA := g.bankA, bankB := g.bankB, cellWidth := g.cellWidth, colour := colour, energy := g.energy }
        ∧ t.store.mem = s.store.mem ∧ t.store.free = s.store.free
        ∧ HoldsChanged (planOf s q h.survey h.id
            (if q.kind = .eventDetail then findEvent s h.survey q.event else none)).set s t
        ∧ (st ≠ ownStation s →
            t.composer.state = .opening ∧ t.composer.line = 0 ∧ t.composer.gone = 0
            ∧ t.composer.credit = s.composer.credit ∧ t.composer.paused = false
            ∧ t.composer.openingTimer = some (s.now + 1000000) ∧ t.composer.finishingTimer = none
            ∧ (∀ x ∈ t.composer.set, x.gone = false ∧ x.cleared = false
                ∧ ∀ e ∈ t.store.dir, e.id = x.recId → e.hold = true)
            ∧ (∀ kind, (q.kind = .eventList ∧ q.notes = false ∧ kind = .event
                  ∨ q.kind = .harmonicSummary ∧ kind = .interval) →
                ∀ id, id ∈ t.composer.set.map SetItem.recId ↔ ∃ e ∈ s.store.dir, e.id = id ∧ e.kind = kind
                  ∧ e.survey = h.survey ∧ q.fromMs ≤ e.time ∧ e.time ≤ q.toMs)
            ∧ (t.link = (answered f .reportRequest (.accepted job 0)
                (sentTo st .jobOpen (u16 job ++ u8 q.kind.code ++ u8 g.bankA ++ u8 g.bankB ++ u8 g.cellWidth
                  ++ u8 colour ++ u8 g.energy ++ u16 estimate) (noLoopback (heard f s)))).link)
            ∧ t = { s with composer := t.composer, store := { s.store with dir := t.store.dir }
                           peers := t.peers, link := t.link }))

/-- The frames of the printer station for the report in progress. JOB_QUEUED ends OPENING and gives the queue position;
PRINT_STATE is kept and restarts the finishing timer; PRINT_GO raises the credit to 16 at most, and out of FINISHING the
composer sends lines, each a PRINT_LINE to the printer with the job number, the next line number, its flags and its
cells without the blank ones at its end, until the credit is 0 or the closing line, which alone carries the last flag,
is sent; each line is what its line job at the front of the cursor gives, in the state the job before it has left; only
holds of the report's set change. A frame for no report of this station changes nothing. The premise on the closing line
is the ReportLaw of PrintLawIsKept. What the lines show: every line has 49 cells, heading 1 alone is of double height;
an event list's event, date, note and GONE lines, the header and text lines of a note, and a summary's figures and order
lines have the cells of their tables (R91, R135, R136, R137, R140 to R145). Eight clauses are the model's choice: a
JOB_QUEUED for the report taken outside OPENING changes nothing, and no queue position is kept from it (log 56), dates
and times are counted from the start seconds kept at acceptance (log 22), the line number stops at 65535 (log 31), a
PRINT_GO that leaves no credit leaves the composer in WAITING_CREDIT (log 38), OPEN stands at the left of its cells, '-'
in both cells of an absent worst channel, and GONE of a missing note in cells 7 to 10 (log 33), a note of an event list
found missing gives the line of a missing event (log 61), and the '-' of a mean or ratio without a value stands in the
last of its five cells (log 72). -/
def Obligations.ReportAdvancesWithCredit : Prop :=
  (∀ (f : RxFrame) (s : State), Reaches f s → f.payload.length = 3 →
    let mine := s.composer.state ≠ .idle ∧ f.sender = s.composer.printer ∧ u16At f.payload 1 = s.composer.job
    let value := byteAt f.payload 3
    let credit := min 16 (s.composer.credit + value)
    (¬mine → exec (.jobQueued f) s = .next (heard f s) ∧ exec (.printState f) s = .next (heard f s)
      ∧ exec (.printGo f) s = .next (noLoopback (heard f s)))
    ∧ (mine → s.composer.state = .opening → exec (.jobQueued f) s = .next { heard f s with
        composer := { s.composer with state := .queued, queuePosition := some value, openingTimer := none } })
    ∧ (mine → s.composer.state ≠ .opening → exec (.jobQueued f) s = .next (heard f s))
    ∧ (mine → value ≤ 1 → s.composer.state ≠ .finishing → exec (.printState f) s = .next { heard f s with
        composer := { s.composer with paused := decide (value = 0) } })
    ∧ (mine → value ≤ 1 → s.composer.state = .finishing → exec (.printState f) s = .next { heard f s with
        composer := { s.composer with
          paused := decide (value = 0)
          finishingTimer := if value = 0 then none else some (s.now + 60000000) } })
    ∧ (mine → s.composer.state = .finishing → exec (.printGo f) s = .next { noLoopback (heard f s) with
        composer := { s.composer with
          credit := credit
          finishingTimer := if s.composer.paused then none else some (s.now + 60000000) } })
    ∧ (mine → s.composer.state ≠ .finishing → s.composer.line ≤ 65535 → ∃ (t : State) (lines : List ReportLine),
        exec (.printGo f) s = .next t
        ∧ lines.length + t.composer.credit = credit
        ∧ t.composer.line = min 65535 (s.composer.line + lines.length)
        ∧ t.link = lines.zipIdx.foldl (fun (l : Link) (x : ReportLine × Nat) =>
            (l.handOver (newFrame .printLine (some f.sender)
              (u16 s.composer.job ++ u16 (min 65535 (s.composer.line + x.2 + 1))
                ++ u8 ((if x.1.last then 1 else 0) + (if x.1.double then 2 else 0))
                ++ u8 (trimLine x.1.cells).length ++ (trimLine x.1.cells).flatMap LineCell.bytes))).1)
            (noLoopback (heard f s)).link
        ∧ (∀ x ∈ lines.dropLast, x.last = false)
        ∧ (LineJob.closing ∈ s.composer.cursor.jobs →
            t.composer.state = .finishing ∧ lines.getLast?.any ReportLine.last = true
            ∨ t.composer.state = .waitingCredit ∧ ∀ x ∈ lines, x.last = false)
        ∧ (∀ j rest l, s.composer.cursor.jobs = j :: rest → 0 < credit → (composeJob j s).2 = some l →
            lines.head? = some l)
        ∧ (∃ u, LinesComposed { noLoopback (heard f s) with
              composer := { s.composer with credit := credit, state := .sending, openingTimer := none } } lines u
            ∧ (t = u ∨ u.composer.credit = 0
              ∧ t = { u with composer := { u.composer with state := .waitingCredit } }))
        ∧ (t.composer.state = .sending ∨ t.composer.state = .waitingCredit ∨ t.composer.state = .finishing)
        ∧ (t.composer.state = .waitingCredit → t.composer.credit = 0)
        ∧ (t.composer.state = .finishing → t.composer.finishingTimer =
            if s.composer.paused then none else some (s.now + 60000000))
        ∧ t.composer.openingTimer = none ∧ t.composer.job = s.composer.job
        ∧ t.composer.printer = s.composer.printer ∧ t.composer.request = s.composer.request
        ∧ HoldsChanged (s.composer.set.map SetItem.recId) s t
        ∧ t = { s with composer := t.composer, store := { s.store with dir := t.store.dir }
                       peers := t.peers, link := t.link }))
  ∧ ∀ s : State,
    let blank := fun n => List.replicate n (0x20 : Byte)
    let shows := fun (j : LineJob) (codes : List Byte) =>
      ∃ l, (composeJob j s).2 = some l ∧ l.cells.map LineCell.code = codes
    let missed := fun (id : Nat) (j : LineJob) => (composeJob j s).1.composer.gone = s.composer.gone
      + if s.composer.set.any (fun x => x.recId == id && !x.gone) then 1 else 0
    let bar := separator s.composer.render
    let Cs := s.composer.startSeconds
    let gone := blank 6 ++ codesOf "GONE" ++ blank 39
    (∀ j l, (composeJob j s).2 = some l → l.cells.length = 49 ∧ (l.last = true ↔ j = .closing)
      ∧ (l.double = true ↔ j = .heading 1))
    ∧ (∀ id notes, readBytes s id = none →
        shows (.listEvent id notes) gone ∧ shows (.listEventLine id notes) gone
        ∧ missed id (.listEvent id notes) ∧ missed id (.listEventLine id notes))
    ∧ (∀ id n, readBytes s id = none → shows (.listNote id n) gone ∧ missed id (.listNote id n))
    ∧ (∀ id number n, readBytes s id = none →
        let line := numberText 5 number ++ blank 1 ++ codesOf "GONE" ++ blank 39
        shows (.noteEntry id number) line ∧ shows (.noteHeader id number) line ∧ shows (.noteLine id number n) line
        ∧ missed id (.noteLine id number n))
    ∧ (∀ id notes bs, readBytes s id = some bs →
        let day := (Cs + u32At bs 7 / 1000) / 86400
        let line := numberText 5 (u16At bs 1) ++ [bar] ++ timeText Cs (u32At bs 7) ++ [bar]
          ++ codesOf (if byteAt bs 5 = 1 then "I" else "S") ++ [bar]
          ++ (if bitAt bs 6 0 then numberText 9 (u32At bs 11 - u32At bs 7) else codesOf "OPEN" ++ blank 5) ++ [bar]
          ++ (if byteAt bs 25 = 0 then codesOf "--" else codesOf "V" ++ [BitVec.ofNat 8 (48 + byteAt bs 25)]) ++ [bar]
          ++ rightAligned 5 (tenthsText (match byteAt bs 25 with
              | 1 => u16At bs 19
              | 2 => u16At bs 21
              | 3 => u16At bs 23
              | _ => min (u16At bs 19) (min (u16At bs 21) (u16At bs 23)))) ++ [bar]
          ++ (List.range 3).map (fun k => if bitAt bs 26 k then BitVec.ofNat 8 (49 + k) else 0x2D) ++ [bar]
          ++ (List.range 5).map (fun k => if bitAt bs 36 k then (codesOf "CENRO").getD k 0 else 0x2E)
        shows (.listEventLine id notes) line
        ∧ (s.composer.cursor.lastDay = some day → shows (.listEvent id notes) line)
        ∧ (s.composer.cursor.lastDay ≠ some day →
            shows (.listEvent id notes) (dateText (Cs + u32At bs 7 / 1000) ++ blank 39)))
    ∧ (∀ id number n bs, readBytes s id = some bs →
        let part := ((noteText bs).drop (43 * n)).take 43
        let text := part ++ blank (43 - part.length)
        shows (.noteLine id number n) (blank 6 ++ text)
        ∧ shows (.listNote id n) ((if n = 0 then numberText 5 (u16At bs 1) else blank 5) ++ blank 1 ++ text)
        ∧ shows (.noteHeader id number) (numberText 5 (u16At bs 1) ++ blank 1 ++ timeText Cs (u32At bs 3) ++ blank 1
            ++ numberText 2 (byteAt bs 7) ++ blank 1
            ++ (if u16At bs 10 = 0 then blank 6 else codesOf "E" ++ numberText 5 (u16At bs 10)) ++ blank 21))
    ∧ ∀ (c : Channel) (k : Nat), 1 ≤ k → k ≤ 25 →
        let read := s.composer.set.filterMap fun x => readBytes s x.recId
        let used := read.filter fun bs => !bitAt bs 15 1 && !bitAt bs 15 2
        let figures := (composeJob (.channelHeading c) s).1.composer.cursor.figures
        let order := 42 + 110 * (c.number - 1) + 11 + 4 * (k - 1)
        figures.used = used.length
        ∧ figures.means.getD (k - 1) 0 = (used.map fun bs => u16At bs order).sum / used.length
        ∧ (∀ bs ∈ read, u16At bs (order + 2) ≤ figures.highest.getD (k - 1) 0)
        ∧ (read ≠ [] → ∃ bs ∈ read, figures.highest.getD (k - 1) 0 = u16At bs (order + 2))
        ∧ let f := s.composer.cursor.figures
          shows (.order c k) (numberText 2 k ++ [bar]
            ++ rightAligned 5 (if f.used = 0 then codesOf "-" else digits (f.means.getD (k - 1) 0)) ++ [bar]
            ++ numberText 5 (f.highest.getD (k - 1) 0) ++ [bar]
            ++ rightAligned 5 (if f.used = 0 ∨ f.means.getD 0 0 = 0 then codesOf "-" else
                hundredthsText (min 9999 (10000 * f.means.getD (k - 1) 0 / f.means.getD 0 0))) ++ blank 29)

/-- The ends of a report: by PRINT_END with the outcome it carries (in OPENING only DUPLICATE), by REPORT_CANCEL, and
by the opening and the finishing timer, these three asking the printer by JOB_CANCEL. The composer is IDLE with that
outcome, no credit, an empty set and cursor, no timer; its waiting lines, and no other frame, are gone from the
transmit queue; its holds are cleared, and no other record's. REPORT_CANCEL in IDLE is refused (R91, R135, R137, R138,
R139). Three clauses are the model's choice: its clock jumps to a timer's time (log 2), a line whose attempt was lost
counts as not begun (log 53), and the JOB_CANCEL is handed over before the lines are taken out and the request
answered (log 43). -/
def Obligations.ReportEndsWithItsOutcome : Prop :=
  ∀ (f : RxFrame) (s : State),
    let mine := s.composer.state ≠ .idle ∧ f.sender = s.composer.printer ∧ u16At f.payload 1 = s.composer.job
      ∧ (s.composer.state ≠ .opening ∨ byteAt f.payload 3 = 5)
    let ended := fun (outcome : Nat) (t : State) =>
      t.composer.state = .idle ∧ t.composer.lastOutcome = outcome ∧ t.composer.credit = 0 ∧ t.composer.set = []
      ∧ t.composer.cursor = ReportCursor.empty ∧ t.composer.openingTimer = none ∧ t.composer.finishingTimer = none
      ∧ t.composer.job = s.composer.job ∧ t.store.mem = s.store.mem ∧ t.store.free = s.store.free
      ∧ (∀ g ∈ t.link.queue, g.kind = .printLine → g.dest = some s.composer.printer →
          u16At g.payload 1 = s.composer.job → g.inTx = true)
      ∧ HoldsChanged ((s.composer.set.filter fun x => !x.cleared).map SetItem.recId) s t
      ∧ (StoreLaw s → ∀ x ∈ s.composer.set, x.cleared = false → x.recId ≤ s.composer.idLimit →
          ∀ e ∈ t.store.dir, e.id = x.recId → e.hold = false)
    let without := fun (l : Link) => { l with queue := l.queue.filter fun g => g.inTx
      || !(g.kind == .printLine && g.dest == some s.composer.printer && u16At g.payload 1 == s.composer.job) }
    let cancelled := fun (u : State) =>
      without (sentTo s.composer.printer .jobCancel (u16 s.composer.job) (noLoopback u)).link
    (Reaches f s → f.payload.length = 3 → mine → ∃ t, exec (.printEnd f) s = .next t ∧ ended (byteAt f.payload 3) t
      ∧ t.link = without (heard f s).link
      ∧ t = { s with composer := t.composer, store := { s.store with dir := t.store.dir }
                     peers := t.peers, link := t.link })
    ∧ (Reaches f s → f.payload.length = 3 → ¬mine → exec (.printEnd f) s = .next (heard f s))
    ∧ (Asks f 1 s → s.composer.state = .idle → exec (.reportCancel f) s =
        .next (answered f .reportCancel (.refused .notActive 0) (noLoopback (heard f s))))
    ∧ (Asks f 1 s → s.composer.state ≠ .idle → ∃ t, exec (.reportCancel f) s = .next t ∧ ended 2 t
      ∧ (s.composer.printer ≠ ownStation s → t.link = (answered f .reportCancel (.accepted 0 0)
          { s with link := cancelled (heard f s) }).link))
    ∧ (∀ d, s.powered = true → s.composer.openingTimer = some d →
        ∃ t, exec .openingTimerExpiry s = .next t ∧ ended 7 t ∧ t.now = max s.now d
          ∧ (s.composer.printer ≠ ownStation s → t.link = cancelled s))
    ∧ ∀ d, s.powered = true → s.composer.finishingTimer = some d →
        ∃ t, exec .finishingTimerExpiry s = .next t ∧ ended 9 t ∧ t.now = max s.now d
          ∧ (s.composer.printer ≠ ownStation s → t.link = cancelled s)

/-! ### The print station -/

/-- At a station not strapped PRN, and from a station numbered 8 to 15, JOB_OPEN and PRINT_LINE are ignored whatever
their length. JOB_OPEN at a printer station from a recorder station joins the queue and is answered by its position, or
is refused DUPLICATE; it waits behind a running job, a row, a feed or lines, and at a printer not ready; at the head of
an idle, ready printer it is ACTIVE at once with a credit of 16. A PRINT_LINE within the credit goes into the buffer, a
marker line before it when numbers are missing, and moves the job on; credit of the whole free room is granted by a
PRINT_GO once that is 4 or more, the line timer starts afresh while the ACTIVE job has credit, and an idle head begins
with the oldest line of the buffer. A line of no job, or out of place, is discarded and counted (R147 to R153, R155).
Three clauses are the model's choice: credit is tested when a line has been taken (log 17), after a line numbered 65535
the expected line is 65536 (log 63), and a marker line's text begins at cell 1, of normal height (log 68). Jobs of this
station's own printer come by loopback, and not by these commands (log 10). -/
def Obligations.PrinterTakesJobsAndLines : Prop :=
  ∀ (f : RxFrame) (s : State), Reaches f s →
    let h := noLoopback (heard f s)
    let number := u16At f.payload 1
    let takes := s.pins.straps.prn = true ∧ f.sender.val < 8
    let job : Job := {
      origin := f.sender, number := number, kind := byteAt f.payload 3
      render := { bankA := byteAt f.payload 4, bankB := byteAt f.payload 5, cellWidth := byteAt f.payload 6
                  colour := byteAt f.payload 7, energy := byteAt f.payload 8 }
      estimate := u16At f.payload 9, state := .queued, credit := 0, expected := 1, lastTaken := false
      received := 0, printed := 0 }
    (¬takes → exec (.jobOpen f) s = .next h ∧ exec (.printLine f) s = .next h)
    ∧ (f.payload.length = 10 → takes → (jobFrom s f.sender).isSome = true →
      exec (.jobOpen f) s = .next (sentTo f.sender .printEnd (u16 number ++ [5]) h))
    ∧ (f.payload.length = 10 → takes → jobFrom s f.sender = none →
      (s.printer.ready = false ∨ (∃ k ∈ s.printer.queue, k.state ≠ .queued) ∨ s.printer.buffer ≠ []
        ∨ s.printer.head ≠ .idle ∨ s.printer.row ≠ none) →
      exec (.jobOpen f) s = .next (sentTo f.sender .jobQueued (u16 number ++ u8 (s.printer.queue.length + 1))
        { h with printer := { s.printer with queue := s.printer.queue ++ [job] } }))
    ∧ (f.payload.length = 10 → takes → s.printer.queue = [] → s.printer.buffer = [] → s.printer.head = .idle →
      s.printer.row = none → s.printer.ready = true →
      exec (.jobOpen f) s = .next (sentTo f.sender .printGo (u16 number ++ [16])
        (sentTo f.sender .jobQueued (u16 number ++ [1])
          { h with printer := { s.printer with
            queue := [{ job with state := .active, credit := 16 }], lineTimer := some (s.now + 10000000) } })))
    ∧ (printLineLength f.payload = true → takes → jobFrom s f.sender = none →
      exec (.printLine f) s = .next (sentTo f.sender .printEnd (u16 number ++ [6])
        { h with printer := { s.printer with linesDiscarded := min 65535 (s.printer.linesDiscarded + 1) } }))
    ∧ ∀ j, printLineLength f.payload = true → takes → jobFrom s f.sender = some j →
      let n := u16At f.payload 3
      let last := bitAt f.payload 5 0
      let cells := cellsOf (f.payload.drop 6)
      let width := j.render.lineCells
      let missing := n - j.expected
      let line : BufferLine := {
        cells := cells.take width, number := some n, last := last, double := bitAt f.payload 5 1 }
      let buffer := s.printer.buffer ++ (if missing = 0 then [] else [markerLine missing]) ++ [line]
      let left := if last then 0 else j.credit - (missing + 1)
      let room := 16 - (left + buffer.length)
      let inPlace := j.state ≠ .queued ∧ j.number = number ∧ j.expected ≤ n ∧ n < j.expected + j.credit
      (¬inPlace → exec (.printLine f) s = .next { h with
        printer := { s.printer with linesDiscarded := min 65535 (s.printer.linesDiscarded + 1) } })
      ∧ (inPlace → runningJob s = some j →
        let grants := 4 ≤ room ∧ j.lastTaken = false ∧ last = false
        let queue := s.printer.queue.map fun x => if x.origin = f.sender then { x with
            credit := if grants then left + room else left
            expected := n + 1, lastTaken := x.lastTaken || last, received := x.received + 1 } else x
        let awaited := (queue.find? fun x => x.state == .active).any fun x => decide (0 < x.credit)
        let u := { h with printer := headGoesOn s.pins.straps.twoc { s.printer with
          queue := queue, buffer := buffer
          linesMissing := min 65535 (s.printer.linesMissing + missing)
          cellsDropped := min 65535 (s.printer.cellsDropped + (cells.length - width))
          lineTimer := if awaited then some (s.now + 10000000) else none } }
        exec (.printLine f) s = .next (if grants then sentTo f.sender .printGo (u16 number ++ u8 room) u else u))

/-- A job's end by JOB_CANCEL and by the line timer: it leaves the queue and is counted, PRINT_END goes to its origin;
an ACTIVE job's lines are dropped and a feed of 48 rows follows, a PAUSED job's lines are dropped and the head rests, a
QUEUED job leaves the one ahead alone. A cancel that names no job of its sender changes nothing, and one that the Print
Unit does not take is ignored whatever its length (R147, R154, R155, R157, R163). Two clauses are the model's choice:
its clock jumps to the timer's expiry (log 2), and the head reads FEEDING from the end of an ACTIVE job on, also while
the row in progress is completed (log 67). -/
def Obligations.JobsEndOnCancelAndTimeout : Prop :=
  (∀ (f : RxFrame) (s : State), Reaches f s →
    let h := noLoopback (heard f s)
    let takes := s.pins.straps.prn = true ∧ f.sender.val < 8
    (¬takes → exec (.jobCancel f) s = .next h)
    ∧ (f.payload.length = 2 →
        jobFrom s f.sender = none ∨ (∃ j, jobFrom s f.sender = some j ∧ j.number ≠ u16At f.payload 1) →
        exec (.jobCancel f) s = .next h)
    ∧ ∀ j, f.payload.length = 2 → takes → jobFrom s f.sender = some j → j.number = u16At f.payload 1 →
      let rest := s.printer.queue.filter fun x => x.origin != f.sender
      let gone := { s.printer with queue := rest, jobsEnded := min 65535 (s.printer.jobsEnded + 1) }
      let ends := fun (p : Printer) =>
        exec (.jobCancel f) s = .next (sentTo f.sender .printEnd (u16 j.number ++ [2]) { h with printer := p })
      (j.state = .active → ends { gone with
        buffer := [], lineTimer := none, head := .feeding 48
        row := if s.printer.ready && s.printer.row.isNone then some (blankRow true) else s.printer.row })
      ∧ (j.state = .paused → s.printer.ready = false → ends { gone with
        buffer := [], lineTimer := none, head := .idle })
      ∧ (j.state = .queued → (∃ k ∈ rest, k.isRunning = true) → ends gone))
  ∧ ∀ (s : State) (d : Nat) (j : Job), s.powered = true → s.printer.lineTimer = some d → activeJob s = some j →
    j.origin ≠ ownStation s →
    exec .lineTimerExpiry s = .next (sentTo j.origin .printEnd (u16 j.number ++ [4])
      { noLoopback s with
        now := max s.now d
        printer := { s.printer with
          queue := s.printer.queue.filter fun x => x.origin != j.origin
          jobsEnded := min 65535 (s.printer.jobsEnded + 1)
          buffer := [], lineTimer := none, head := .feeding 48
          row := if s.printer.ready && s.printer.row.isNone then some (blankRow true) else s.printer.row } })

/-- HEAD_ROW_DONE and FEED_ROW_DONE: the paper moves one row and the head goes on to the next row of the line or feed if
the printer is ready; when it no longer is, the ACTIVE job enters PAUSED once its row is completed, and its origin is
told. After a line's last gap row, the second after 16 rows or 32 of double height, it leaves the buffer and counts as
printed, credit of the free room is granted by a PRINT_GO once that is 4 or more, and the head goes on with the oldest
line left; the line with the
last flag ends its job PRINTED, and a feed of 48 rows follows when the job was ACTIVE. A feed's last row leaves the head
at rest, and a waiting job is activated (R149, R152, R153, R157, R158, R163). The model's choice: rows are events from
outside, counted by motor steps, none begins while the printer is not ready, and a command of the other kind of row
changes nothing (log 34); the pause waits for the row (log 57). -/
def Obligations.HeadMakesItsRows : Prop :=
  ∀ (s : State) (r : DotRow), s.powered = true → s.printer.row = some r →
    let motor := s.printer.motorSteps + 1
    let rows := (s.printer.buffer.head?.elim 16 fun l => if l.double then 32 else 16) + 2
    (r.feed = false → ∀ k, s.printer.head = .printing k → k + 1 < rows →
      let between := { s.printer with motorSteps := motor, head := .printing (k + 1), row := none }
      (s.printer.ready = true → exec .headRowDone s = .next { noLoopback s with printer := { between with
        row := match activeJob s, s.printer.buffer with
          | some j, l :: _ => some (lineRow j.render s.pins.straps.twoc l (k + 1))
          | _, _ => none } })
      ∧ (s.printer.ready = false → activeJob s = none →
        exec .headRowDone s = .next { noLoopback s with printer := between })
      ∧ (s.printer.ready = false → PrintLaw s → ∀ j, activeJob s = some j → j.origin ≠ ownStation s →
        exec .headRowDone s = .next (sentTo j.origin .printState (u16 j.number ++ [0]) { noLoopback s with
          printer := { between with
            lineTimer := none
            queue := s.printer.queue.map fun x =>
              if x.origin = j.origin then { x with state := .paused } else x } })))
    ∧ (∀ k j l rest, r.feed = false → PrintLaw s → s.printer.head = .printing k → rows ≤ k + 1 →
      runningJob s = some j → s.printer.buffer = l :: rest → j.origin ≠ ownStation s →
      (l.last = false →
        let room := 16 - (j.credit + rest.length)
        let grants := 4 ≤ room ∧ j.lastTaken = false
        let pauses := s.printer.ready = false ∧ j.state = .active
        let u := { noLoopback s with printer := headGoesOn s.pins.straps.twoc { s.printer with
          motorSteps := motor, buffer := rest, head := .idle, row := none
          lineTimer := if pauses then none else if grants then
              (if j.state = .active then some (s.now + 10000000) else none)
            else s.printer.lineTimer
          queue := s.printer.queue.map fun x => if x.origin = j.origin then { x with
              printed := j.printed + 1
              state := if pauses then .paused else j.state
              credit := if grants then j.credit + room else j.credit } else x } }
        let v := if grants then sentTo j.origin .printGo (u16 j.number ++ u8 room) u else u
        exec .headRowDone s = .next
          (if pauses then sentTo j.origin .printState (u16 j.number ++ [0]) v else v))
      ∧ (l.last = true → j.state = .active →
        exec .headRowDone s = .next (sentTo j.origin .printEnd (u16 j.number ++ [1])
          { noLoopback s with printer := { s.printer with
            queue := s.printer.queue.filter fun x => x.origin != j.origin
            buffer := [], lineTimer := none, head := .feeding 48, motorSteps := motor
            row := if s.printer.ready then some (blankRow true) else none
            jobsPrinted := min 65535 (s.printer.jobsPrinted + 1) } }))
      ∧ (l.last = true → j.state = .paused → s.printer.ready = false →
        exec .headRowDone s = .next (sentTo j.origin .printEnd (u16 j.number ++ [1])
          { noLoopback s with printer := { s.printer with
            queue := s.printer.queue.filter fun x => x.origin != j.origin
            buffer := [], lineTimer := none, head := .idle, row := none, motorSteps := motor
            jobsPrinted := min 65535 (s.printer.jobsPrinted + 1) } })))
    ∧ (∀ n, r.feed = true → s.printer.head = .feeding n →
      (1 < n → exec .feedRowDone s = .next { noLoopback s with printer := { s.printer with
        motorSteps := motor, head := .feeding (n - 1)
        row := if s.printer.ready then some (blankRow true) else none } })
      ∧ (let rest := { s.printer with motorSteps := motor, head := .idle, row := none }
        (n ≤ 1 → (s.printer.queue = [] ∨ s.printer.ready = false) →
          exec .feedRowDone s = .next { noLoopback s with printer := rest })
        ∧ ∀ j, n ≤ 1 → s.printer.queue.head? = some j → runningJob s = none → s.printer.buffer = [] →
          s.printer.ready = true → j.origin ≠ ownStation s →
          exec .feedRowDone s = .next (sentTo j.origin .printGo (u16 j.number ++ [16]) { noLoopback s with
            printer := { rest with
              lineTimer := some (s.now + 10000000)
              queue := s.printer.queue.map fun x => if x.origin = j.origin then
                  { x with state := .active, credit := 16, expected := 1 } else x } })))
    ∧ (r.feed = true → exec .headRowDone s = .next s) ∧ (r.feed = false → exec .feedRowDone s = .next s)

/-- R160 and R161: the dots of a cell are those of its glyph in the bank its font selects, all off for a code without
one, with a ninth at width 9 that copies the eighth of a table code; an underlined cell is all on in font row 15, and an
inverse one is inverted after that. The cells stand side by side, 56 of 8 dots or 49 of 9, a cell not carried printing
as a space, and the dots beyond them are off; a double-height line shows each font row twice. A dot on in a red cell
goes to the red pass where TWOC is strapped and to the black pass where it is not, a dot on in a black cell to the black
pass; each row is two patterns of 448 dots, and no dot is on in both; gap and feed rows have none on. Of R162, the
strobes of a row: black pass first, in each pass groups 0 to 3 of 112 dots, a group with none on left out, one of more
than 56 as two halves, for the times of the energy level. The glyphs, a space's apart, are free values (log 19), and so
are a cell width other than 8 and 9 and an energy level above 3 (log 20); the motor step is in HeadMakesItsRows. -/
def Obligations.EachDotIsInOnePass : Prop :=
  (∀ (r : Render) (twoc : Bool) (l : BufferLine) (n : Nat),
    let height := if l.double then 32 else 16
    let row := lineRow r twoc l n
    row.feed = false ∧ row.black &&& row.red = 0 ∧ (twoc = false → row.red = 0)
    ∧ (n < height → ∀ i, i < 448 →
        let dot := (rowDots r twoc (if l.double then n / 2 else n) l.cells).getD i (false, false)
        row.black.getLsbD i = (dot.1 && !dot.2) ∧ row.red.getLsbD i = (dot.1 && dot.2))
    ∧ (height ≤ n → row.black = 0 ∧ row.red = 0 ∧ row.strobes = [])
    ∧ (n < height → r.energy ≤ 3 → row.strobes = [false, true].flatMap fun red => (List.range 4).flatMap fun g =>
        let pass := if red then row.red else row.black
        let on := ((List.range' (112 * g) 112).filter fun i => pass.getLsbD i).length
        let strobe := fun half : Nat => ({
          red := red, group := g, half := half
          micros := (if red then [180, 210, 240, 270] else [300, 350, 400, 450]).getD r.energy 0 } : HeadStrobe)
        if on = 0 then [] else if on ≤ 56 then [strobe 0] else [strobe 1, strobe 2]))
  ∧ (∀ feed, (blankRow feed).feed = feed ∧ (blankRow feed).black = 0 ∧ (blankRow feed).red = 0
      ∧ (blankRow feed).strobes = [])
  ∧ ∀ (r : Render) (twoc : Bool) (row i c : Nat) (cells : List LineCell),
    (r.cellWidth = 8 → r.isWide = false) ∧ (r.cellWidth = 9 → r.isWide = true)
    ∧ (let width := if r.isWide then 9 else 8
      let count := if r.isWide then 49 else 56
      let shown := (rowDots r twoc row cells).getD
      let cell := cells.getD c { code := 0x20, fontB := false, red := false, underline := false, inverse := false }
      let code := cell.code.toNat
      let table := 0xC0 ≤ code ∧ code ≤ 0xDF
      let font := Config.fontDots (if cell.fontB then r.bankB else r.bankA) code row
      let glyph := fun k => decide (0x21 ≤ code ∧ code ≤ 0x7E ∨ table) && font.getLsbD (7 - k)
      let plain := if i < 8 then glyph i else decide table && glyph 7
      (c < count → i < width → shown (c * width + i) (false, false)
        = ((decide (cell.underline = true ∧ row = 15) || plain) != cell.inverse, cell.red && twoc))
      ∧ (count * width ≤ i → shown i (false, false) = (false, false)))

/-- PAPER_OUT takes the readiness and pauses an ACTIVE job, which its origin is told by PRINT_STATE, at once when no row
is being made and otherwise not before the row is completed; PAPER_PRESENT at a printer station with the supply NORMAL
starts the 500 ms of the settle timer; at its expiry the printer is ready, a PAUSED job is ACTIVE again, which its
origin is told, credit is granted to it as after a line, the head resumes at the row after the last one made, a feed
goes on, a waiting job is activated (R149, R152, R153, R155, R158, R159). The model's choice: its clock jumps to the
timer's expiry (log 2), and a job whose row was not completed before it was never PAUSED (log 57). -/
def Obligations.PaperPausesAndResumesPrinting : Prop :=
  ∀ s : State, s.powered = true →
    let out := { noLoopback s with pins := { s.pins with paper := false } }
    (activeJob s = none → exec .paperOut s = .next { out with
      printer := { s.printer with settleTimer := none, ready := false } })
    ∧ (s.printer.row ≠ none → exec .paperOut s = .next { out with
      printer := { s.printer with settleTimer := none, ready := false } })
    ∧ (∀ j, PrintLaw s → s.printer.row = none → activeJob s = some j → j.origin ≠ ownStation s →
      exec .paperOut s = .next (sentTo j.origin .printState (u16 j.number ++ [0]) { out with
        printer := { s.printer with
          settleTimer := none, ready := false, lineTimer := none
          queue := s.printer.queue.map fun x => if x.origin = j.origin then { x with state := .paused } else x } }))
    ∧ (s.pins.paper = true → exec .paperPresent s = .next s)
    ∧ (s.pins.paper = false → exec .paperPresent s = .next { s with
      pins := { s.pins with paper := true }
      printer := { s.printer with
        settleTimer := if s.pins.straps.prn = true ∧ s.supply.state = .normal then some (s.now + 500000)
          else s.printer.settleTimer } })
    ∧ ∀ d, s.printer.settleTimer = some d →
      let ready := { noLoopback s with
        now := max s.now d, printer := { s.printer with settleTimer := none, ready := true } }
      (runningJob s = none → s.printer.queue = [] → s.printer.head = .idle →
        exec .settleTimerExpiry s = .next ready)
      ∧ (∀ n, runningJob s = none → s.printer.head = .feeding n → s.printer.row = none →
        exec .settleTimerExpiry s = .next { ready with
          printer := { ready.printer with row := some (blankRow true) } })
      ∧ (∀ j, s.printer.queue.head? = some j → runningJob s = none → s.printer.buffer = [] →
        s.printer.head = .idle → s.printer.row = none → j.origin ≠ ownStation s →
        exec .settleTimerExpiry s = .next (sentTo j.origin .printGo (u16 j.number ++ [16]) { ready with
          printer := { ready.printer with
            lineTimer := some (max s.now d + 10000000)
            queue := s.printer.queue.map fun x => if x.origin = j.origin then
                { x with state := .active, credit := 16, expected := 1 } else x } }))
      ∧ (∀ j, runningJob s = some j → j.state = .active → s.printer.row ≠ none →
        (16 - (j.credit + s.printer.buffer.length) < 4 ∨ j.lastTaken = true) →
        exec .settleTimerExpiry s = .next ready)
      ∧ ∀ j, PrintLaw s → runningJob s = some j → j.state = .paused → j.origin ≠ ownStation s →
        let room := 16 - (j.credit + s.printer.buffer.length)
        let grants := 4 ≤ room ∧ j.lastTaken = false
        let credit := if grants then j.credit + room else j.credit
        let told := sentTo j.origin .printState (u16 j.number ++ [1]) { ready with
          printer := headGoesOn s.pins.straps.twoc { ready.printer with
            lineTimer := if 0 < credit then some (max s.now d + 10000000) else none
            queue := s.printer.queue.map fun x => if x.origin = j.origin then
                { x with state := .active, credit := credit } else x } }
        exec .settleTimerExpiry s = .next
          (if grants then sentTo j.origin .printGo (u16 j.number ++ u8 room) told else told)

/-! ### Supply -/

/-- The supply's way through its states. SUPPLY_WARN_ASSERT in NORMAL enters HOLDUP with the allowance of G4 and takes
the printer's readiness, an ACTIVE job pausing at once or after the row in progress. HOLD_UP_TIMER carries out the SAFE
procedure: the event, the captures and the interval are closed, the event's record completed with CUT_SHORT and an end
ms, and CLOSED, each capture cut to the cycles it has with CUT_SHORT, a running survey's header takes the next event
number and the last-safe seconds, the marker reads CONSISTENT, the survey and its clock go on. A SUPPLY_CUT within the
procedure stops the part in HOLDUP after the steps made so far, each whole: what they closed stays closed, the rest is
as it was, and the marker stands as it stood until step 5 has been made. A frame that arrives during the procedure finds
the part as the steps made so far, and the frames before it, have left it, in HOLDUP until step 6, and is acted on there
as its own command; each later step is made on what it leaves, and the procedure ends in SAFE. SUPPLY_WARN_RELEASE
returns to NORMAL: from HOLDUP nothing has been closed; from SAFE a running survey goes on with the marker WRITING, the
header's resume count raised by 1, the resume mark and a PARTIAL interval (R34, R36, R54, R57, R59, R158, R159, R180 to
R183). The premises are laws of StoreLawIsKept. Three clauses are the model's choice: its clock jumps to the timer's
expiry, and the command changes nothing where no timer runs (log 2), the procedure takes no time of that clock (log 6),
and the last-safe seconds are the low 32 bits of a counter without bound (log 71). -/
def Obligations.SupplyPassesThroughItsStates : Prop :=
  ∀ s : State, s.powered = true →
    let warned := { s with pins := { s.pins with supplyWarn := true } }
    let clear := { s with pins := { s.pins with supplyWarn := false } }
    let settle := if s.pins.straps.prn = true ∧ s.pins.paper = true then some (s.now + 500000)
      else s.printer.settleTimer
    let normal := { s.supply with state := .normal, holdUpTimer := none }
    (s.supply.state ≠ .normal → exec .supplyWarnAssert s = .next warned)
    ∧ (s.supply.state = .normal → ∃ t, exec .supplyWarnAssert s = .next t
      ∧ t.supply = { s.supply with
          state := .holdup, holdUpTimer := some (s.now + 1000 * s.survey.settings.holdUp) }
      ∧ t.pins = warned.pins ∧ t.printer.ready = false ∧ t.printer.settleTimer = none
      ∧ (PrintLaw s → s.printer.row = none → activeJob t = none) ∧ t.printer.buffer = s.printer.buffer
      ∧ (s.printer.row ≠ none → t.printer.queue = s.printer.queue ∧ t.link = (noLoopback s).link)
      ∧ t = { s with pins := t.pins, supply := t.supply, printer := t.printer, link := t.link
                     composer := t.composer })
    ∧ (∀ d, s.supply.holdUpTimer = some d → ∃ t, exec .holdUpTimer s = .next t
      ∧ t.now = max s.now d ∧ t.supply = { s.supply with state := .safe, holdUpTimer := none }
      ∧ t.detector.state = .held ∧ t.detector.event = .none ∧ (∀ i, slot t i = none)
      ∧ t.harmonic.interval = none ∧ t.store.writing = false
      ∧ t.survey = s.survey ∧ t.clock = s.clock ∧ t.sampling = s.sampling ∧ t.notes = s.notes
      ∧ t.composer = s.composer ∧ t.printer = s.printer ∧ t.pins = s.pins
      ∧ (StoreLaw s → DescriptorLaw s → ParentLaw s → SlotsApart s →
          (s.harmonic.interval = none ∨ 11 ≤ s.store.freeCount) → ∀ i, ClosedShort s t i .cutShort)
      ∧ (StoreLaw s → DescriptorLaw s → ParentLaw s → EventStopped true s t ∧ ∀ h, lastHeader s = some h →
          HeaderTakes s t h (if s.survey.running then [(10, u16 s.detector.nextEvent), (14, u32 (retainedSeconds t))]
            else [])))
    ∧ (∀ d (made : Fin 6), s.supply.holdUpTimer = some d → ∃ t,
      exec (.supplyCut (.inSafeProcedure made)) s = .next t
      ∧ t.powered = false ∧ t.now = max s.now d ∧ t.supply = s.supply
      ∧ t.store.writing = (if made.val < 5 then s.store.writing else false)
      ∧ t.survey = s.survey ∧ t.clock = s.clock ∧ t.sampling = s.sampling ∧ t.notes = s.notes
      ∧ t.composer = s.composer ∧ t.printer = s.printer ∧ t.pins = s.pins
      ∧ (made.val = 0 → t = { s with powered := false, now := t.now })
      ∧ (1 ≤ made.val → t.detector.state = .held ∧ t.detector.event = .none)
      ∧ (made.val ≤ 1 → t.capture = s.capture)
      ∧ (2 ≤ made.val → ∀ i, slot t i = none)
      ∧ (made.val ≤ 2 → t.harmonic = s.harmonic)
      ∧ (3 ≤ made.val → t.harmonic.interval = none)
      ∧ (StoreLaw s → DescriptorLaw s → ParentLaw s → SlotsApart s → 2 ≤ made.val →
          (s.harmonic.interval = none ∨ 11 ≤ s.store.freeCount) → ∀ i, ClosedShort s t i .cutShort)
      ∧ (StoreLaw s → DescriptorLaw s → ParentLaw s → (1 ≤ made.val → EventStopped true s t)
          ∧ ∀ h, lastHeader s = some h → HeaderTakes s t h
            (if s.survey.running = true ∧ 4 ≤ made.val then
              [(10, u16 s.detector.nextEvent), (14, u32 (retainedSeconds t))]
            else [])))
    ∧ (s.supply.holdUpTimer = none → ∀ during, exec (.holdUpTimer during) s = .next s)
    ∧ (∀ d (during : List SafeFrame), s.supply.holdUpTimer = some d → ∃ u : Fin 6 → State,
      (∀ made, (u made).powered = true ∧ (u made).now = max s.now d ∧ (u made).supply = s.supply
        ∧ (u made).pins = s.pins
        ∧ exec (.supplyCut (.inSafeProcedure made during)) s = .next { u made with powered := false })
      ∧ (∀ x : SafeFrame, ∃ v, exec (commandOf x.kind x.frame) (u x.made) = .next v
        ∧ exec (.supplyCut (.inSafeProcedure x.made (during ++ [x]))) s = .next { v with powered := false })
      ∧ (let quiet := fun made : Fin 6 => ∀ x ∈ during, x.made ≠ made
        let closing := fun made : Fin 6 => StoreLaw (u made) → DescriptorLaw (u made) → ParentLaw (u made)
        (quiet 0 → u 0 = { s with now := max s.now d })
        ∧ (quiet 1 → (u 1).detector.state = .held ∧ (u 1).detector.event = .none ∧ (u 1).capture = (u 0).capture
            ∧ (u 1).harmonic = (u 0).harmonic ∧ (u 1).survey = (u 0).survey
            ∧ (closing 0 → EventStopped true (u 0) (u 1)))
        ∧ (quiet 2 → (∀ i, slot (u 2) i = none) ∧ (u 2).detector = (u 1).detector
            ∧ (u 2).harmonic = (u 1).harmonic ∧ (u 2).survey = (u 1).survey
            ∧ (closing 1 → SlotsApart (u 1) → ∀ i, ClosedShort (u 1) (u 2) i .cutShort))
        ∧ (quiet 3 → (u 3).harmonic.interval = none ∧ (u 3).detector = (u 2).detector
            ∧ (u 3).capture = (u 2).capture ∧ (u 3).survey = (u 2).survey)
        ∧ (quiet 4 → u 4 = { u 3 with store := (u 4).store } ∧ (u 4).store.dir = (u 3).store.dir
            ∧ (u 4).store.writing = (u 3).store.writing
            ∧ (closing 3 → ∀ h, lastHeader (u 3) = some h → HeaderTakes (u 3) (u 4) h
                (if (u 3).survey.running then
                  [(10, u16 (u 3).detector.nextEvent), (14, u32 (retainedSeconds (u 3)))]
                else [])))
        ∧ (quiet 5 → u 5 = { u 4 with store := { (u 4).store with writing := false } }))
      ∧ ∃ t, exec (.holdUpTimer during) s = .next t
        ∧ t = { u 5 with supply := { s.supply with state := .safe, holdUpTimer := none } }
        ∧ t.detector.state = .held ∧ t.detector.event = .none ∧ t.harmonic.interval = none
        ∧ (∀ i x, slot t i = some x → x.kind = .companion)
        ∧ ((∀ x ∈ during, x.kind ≠ .triggerNotice) → ∀ i, slot t i = none)
        ∧ ((∀ x ∈ during, x.kind ≠ .surveyStart) → t.store.writing = false))
    ∧ (s.supply.state = .normal → exec .supplyWarnRelease s = .next clear)
    ∧ (s.supply.state = .holdup → exec .supplyWarnRelease s = .next { clear with
      supply := normal, printer := { s.printer with settleTimer := settle } })
    ∧ (s.supply.state = .safe → s.survey.running = false → exec .supplyWarnRelease s = .next { clear with
      supply := normal, printer := { s.printer with settleTimer := settle } })
    ∧ (StoreLaw s → s.supply.state = .safe → s.survey.running = true → s.harmonic.interval = none →
      ∃ t i, exec .supplyWarnRelease s = .next t
        ∧ t.supply = normal ∧ t.store.writing = true ∧ t.store.dir = s.store.dir
        ∧ t.detector = { s.detector with resumeMark := true }
        ∧ t.harmonic = { s.harmonic with interval := some i } ∧ i.partial_ = true ∧ i.startMs = surveyMs s
        ∧ t.printer = { s.printer with settleTimer := settle }
        ∧ t = { clear with supply := t.supply, store := t.store, detector := t.detector, harmonic := t.harmonic
                           printer := t.printer }
        ∧ (∀ h, lastHeader s = some h →
            HeaderTakes s t h [(12, u16 (min 65535 (u16At (recordBytes s h) 12 + 1)))])
        ∧ ∀ a, (∀ h, lastHeader s = some h → a ≠ 128 * h.firstBlock + 11 ∧ a ≠ 128 * h.firstBlock + 12) →
            Memory.readByte t.store.mem a = Memory.readByte s.store.mem a)

/-! ### What every step keeps -/

/-- Every step keeps the store's memory in canonical form, and the store's law: no block is in two places, the free
count is that of the free list, record ids rise below the id counter, and no block is lost: the free list and the chains
hold all 4096. Waveform records alone carry a capture descriptor; in STANDBY nothing is open; and every parent that a
record, a descriptor or a slot names, and the event in progress, is an EVENT record of the directory, the records of the
other kinds holding 3 blocks, an INTERVAL, or 1. The open slots stay apart: no two of them have one record or one parent
event, and no slot's record is a parent; each slot's record is an OPEN waveform, a companion has no parent, and an event
whose end capture has not been asked for has none in a slot (R18, R20, R44, R46, R49, R51, R53, R57, R58, R66, R80 to
R84, R89, R90, R178). -/
def Obligations.StoreLawIsKept : Prop :=
  (∀ s t : State, MemoryForm s → step s = .next t → MemoryForm t)
  ∧ (∀ s t : State, StoreLaw s → step s = .next t → StoreLaw t ∧ (StoreTotal s → StoreTotal t))
  ∧ (∀ s t : State, StoreLaw s → DescriptorLaw s → step s = .next t → DescriptorLaw t)
  ∧ (∀ s t : State, StandbyLaw s → step s = .next t → StandbyLaw t)
  ∧ (∀ s t : State, StoreLaw s → DescriptorLaw s → StandbyLaw s → ParentLaw s → step s = .next t → ParentLaw t)
  ∧ ∀ s t : State, StoreLaw s → DescriptorLaw s → StandbyLaw s → ParentLaw s → SlotLaw s → step s = .next t →
      SlotLaw t ∧ SlotsApart t

/-- Every step keeps the transmit queue's law: at most 16 frames in priority order, one in transmission at most, none
once the station is silent (R167, R171, R172). -/
def Obligations.QueueLawIsKept : Prop :=
  ∀ s t : State, QueueLaw s → step s = .next t → QueueLaw t

/-- Every step keeps the sampling law: each strobe stands where R5 places it and has one set, every cycle handed on has
64 sets, the ring's cycles bear consecutive numbers up to the cycle in progress, periods and codes stay in their ranges
(R1, R4, R5, R6, R10, R11, R13, R42). -/
def Obligations.ScheduleLawIsKept : Prop :=
  ∀ s t : State, ScheduleLaw s → step s = .next t → ScheduleLaw t

/-- Every step keeps the context stack's law: at most 6 open contexts of at most 255, numbered in the order they were
opened, none in STANDBY (R102, R104, R105, R112). -/
def Obligations.NotesLawIsKept : Prop :=
  ∀ s t : State, NotesLaw s → step s = .next t → NotesLaw t

/-- Every step leaves the open-offer list the one to be formed from the free count, the settings and the survey, and no
agreement provided on an offer that is not in it. The list is that of the offers of the table that are open at the free
count, in table order. A forming that leaves the set of positions as it was changes the list alone. One that changes it
raises the revision by 1, from 65535 to 0, frees each provider record that rests on an offer taken out, tells its
requester by an AGREE_END with reason GIVEN_BACK, unless the station is silent, and then, while a survey runs, makes an
OFFERS due: it is handed over with the new list, or waits while the send limit runs (R114, R115, R116, R126, R127,
R128). Two clauses are the model's reading: the order of several AGREE_END, in rising station number (log 40), and that
a position of the table whose offer was never set is never open (log 26). -/
def Obligations.OffersLawIsKept : Prop :=
  (∀ s t : State, OffersLaw s → step s = .next t → OffersLaw t)
  ∧ (∀ s : State, openOffers s =
      let g := s.survey.settings
      if s.survey.running = true ∧ g.serve = true ∧ s.link.silent = false then
        (List.range g.offerCount).filterMap fun k => (g.offers.toList[k]?.join.filter fun o =>
          decide (4 * offerCost o + 64 ≤ s.store.freeCount)).map fun o => { position := k + 1, offer := o }
      else [])
  ∧ ∀ s : State,
    let list := openOffers s
    let before := positions s.agreement.list
    let after := positions list
    let revision := if s.agreement.revision = 65535 then 0 else s.agreement.revision + 1
    let rests := fun (p : Provider) => before.contains p.position && !after.contains p.position
    let ends := if s.link.silent then [] else allStations.filterMap fun st =>
      ((peer s st).provider.filter rests).map fun p => newFrame .agreeEnd (some st) (u8 p.position ++ [0, 1])
    let told := ends.foldl (fun (l : Link) x => (l.handOver x).1) s.link
    let due := s.survey.running = true ∧ s.link.silent = false
    let limited := ∃ d, s.agreement.sendLimit = some d ∧ s.now < d
    let t := formOffers s
    (after = before → t = { s with agreement := { s.agreement with list := list } })
    ∧ (after ≠ before → s.agreement.revision ≤ 65535 → ((peer s (ownStation s)).provider.filter rests = none) →
      t = { s with agreement := t.agreement, peers := t.peers, link := t.link }
      ∧ (∀ st, peer t st = if ((peer s st).provider.filter rests).isSome then { peer s st with provider := none }
          else peer s st)
      ∧ (¬due → t.link = told ∧ t.agreement = { s.agreement with list := list, revision := revision })
      ∧ (due → limited → t.link = told
          ∧ t.agreement = { s.agreement with list := list, revision := revision, pendingOffers := true })
      ∧ (due → ¬limited → t.link = (told.handOver (offersFrame s.survey.id revision list)).1
          ∧ t.agreement = { list := list, revision := revision, pendingOffers := false
                            sendLimit := some (s.now + 1000000), refresh := some (s.now + 10000000) }))

/-- Every step from a state that meets the Supply Monitor's law keeps the Print Unit's law: one job a station, the head
job alone running, lines and credit within the 16 lines of the buffer, readiness only with paper and a NORMAL supply.
Every step keeps the composer's side too: a report in progress has its closing line to compose until it is sent (R136,
R142, R148, R149, R152, R158, R159). -/
def Obligations.PrintLawIsKept : Prop :=
  (∀ s t : State, SupplyLaw s → PrintLaw s → step s = .next t → PrintLaw t)
  ∧ ∀ s t : State, ReportLaw s → step s = .next t → ReportLaw t

/-- Every step keeps the Supply Monitor's law: the hold-up timer runs exactly in HOLDUP, in a part that is not stopped
the marker reads CONSISTENT in STANDBY and WRITING while a survey runs out of SAFE, and in SAFE no event, no interval
and no capture but a companion is open. And no capture at all is open in SAFE, with the marker CONSISTENT, as long as no
notice and no survey start arrives within the SAFE procedure itself (R54, R59, R98, R180 to R183). That a companion
opened by such a notice stays open, and the marker set by such a start stays WRITING, is read from those rules
(log 6). -/
def Obligations.SupplyLawIsKept : Prop :=
  (∀ s t : State, SupplyLaw s → step s = .next t → SupplyLaw t)
  ∧ ∀ s t : State, SupplyLaw s → SafeLaw s →
      (∀ during rest, s.pending = .holdUpTimer during :: rest →
        ∀ x ∈ during, x.kind ≠ .triggerNotice ∧ x.kind ≠ .surveyStart) →
      step s = .next t → SafeLaw t
end

