-- ==== Sys2Proof/Laws/Arithmetic.lean ====
section
/-! SUPPORT. What the whole-number arithmetic of the manual computes (00, Numbers). -/

namespace Sys2Proof.Machine

/-- Bit by bit, the root stays the largest whole number tried whose square does not exceed the number. -/
theorem isqrtBits_spec (n b r : Nat) (lo : r * r ≤ n) (hi : n < (r + 2 ^ b) * (r + 2 ^ b)) :
    isqrtBits n b r * isqrtBits n b r ≤ n ∧ n < (isqrtBits n b r + 1) * (isqrtBits n b r + 1) := by
  induction b generalizing r with
  | zero => exact ⟨lo, by simpa [isqrtBits] using hi⟩
  | succ b ih =>
    unfold isqrtBits
    split
    · rename_i h
      refine ih _ h ?_
      have : r + 2 ^ b + 2 ^ b = r + 2 ^ (b + 1) := by rw [pow_succ]; omega
      rw [this]; exact hi
    · rename_i h
      exact ih _ lo (by omega)

/-- isqrt(x) is the largest whole number whose square does not exceed x. -/
theorem isqrt_spec (n : Nat) : isqrt n * isqrt n ≤ n ∧ n < (isqrt n + 1) * (isqrt n + 1) := by
  refine isqrtBits_spec n _ 0 (Nat.zero_le n) ?_
  have h : n < 2 ^ (n.log2 + 1) := Nat.lt_log2_self
  have hb : n.log2 + 1 ≤ (n.log2 / 2 + 1) + (n.log2 / 2 + 1) := by omega
  calc n < 2 ^ (n.log2 + 1) := h
    _ ≤ 2 ^ ((n.log2 / 2 + 1) + (n.log2 / 2 + 1)) := Nat.pow_le_pow_right (by decide) hb
    _ = _ := by rw [pow_add]; simp

/-- isqrt is the library's square root. -/
theorem isqrt_eq_sqrt (n : Nat) : isqrt n = Nat.sqrt n :=
  Nat.eq_sqrt.2 (isqrt_spec n)

/-- The total of a list is its sum. -/
theorem total_eq_sum (l : List Nat) : total l = l.sum := (List.sum_eq_foldl (xs := l)).symm

/-- Division rounded up. -/
theorem ceilDiv_spec {a b : Nat} (hb : 0 < b) : a ≤ b * ceilDiv a b ∧ b * ceilDiv a b < a + b := by
  unfold ceilDiv
  have h₁ := Nat.div_add_mod (a + b - 1) b
  have h₂ := Nat.mod_lt (a + b - 1) hb
  omega

/-- A 16-bit saturating counter stays one. -/
theorem raise16_le (c n : Nat) : raise16 c n ≤ 65535 := Nat.min_le_left ..

end Sys2Proof.Machine
end

