-- ==== Sys2Proof/Laws/Composer.lean ====
section
/-! SUPPORT. What the Report Composer's shared operations can do: a line handed over, one line job taken from the
cursor. -/

namespace Sys2Proof.Machine

/-- A composed line for another station's printer is handed over as R136 and R137 say. -/
theorem sendLine_eq (l : ReportLine) (s : State) (h : s.composer.printer ≠ ownStation s) :
    sendLine l s = lineHanded l s := by
  cases hl : l.last <;>
    simp [sendLine, lineHanded, send, h, hl, sentTo, handed, printLinePayload, enterFinishing, startTimer, msTicks]

/-- All that composing the front line job does: it leaves the cursor and is composed, the holds no later line needs are
cleared, and the line it gives, if any, is handed over (R136, R140). -/
theorem composeNext_eq (s : State) (j : LineJob) (h : s.composer.cursor.jobs.head? = some j) :
    composeNext s = (composeJob j (jobTaken s)).2.elim (clearPassed (composeJob j (jobTaken s)).1)
      (fun l => sendLine l (clearPassed (composeJob j (jobTaken s)).1)) := by
  unfold composeNext
  cases hj : s.composer.cursor.jobs with
  | nil => simp [hj] at h
  | cons k rest =>
    obtain rfl : k = j := by simpa [hj] using h
    have taken : modifyCursor (fun c => { c with jobs := rest }) s = jobTaken s := by
      simp [modifyCursor, jobTaken, hj]
    simp only [taken]
    cases (composeJob k (jobTaken s)).2 <;> rfl

end Sys2Proof.Machine
end

