-- ==== Sys2Proof/Laws/State.lean ====
section
/-! SUPPORT. The fields of State after each shared update: one lemma per field, so that no proof unfolds an update. -/

namespace Sys2Proof.Machine

/-! ### `setPeer` -/

@[simp] theorem setPeer_pending (st : Station) (p : Peer) (s : State) : (setPeer st p s).pending = s.pending := rfl
@[simp] theorem setPeer_now (st : Station) (p : Peer) (s : State) : (setPeer st p s).now = s.now := rfl
@[simp] theorem setPeer_powered (st : Station) (p : Peer) (s : State) : (setPeer st p s).powered = s.powered := rfl
@[simp] theorem setPeer_freeUses (st : Station) (p : Peer) (s : State) : (setPeer st p s).freeUses = s.freeUses := rfl
@[simp] theorem setPeer_pins (st : Station) (p : Peer) (s : State) : (setPeer st p s).pins = s.pins := rfl
@[simp] theorem setPeer_retained (st : Station) (p : Peer) (s : State) : (setPeer st p s).retained = s.retained := rfl
@[simp] theorem setPeer_sampling (st : Station) (p : Peer) (s : State) : (setPeer st p s).sampling = s.sampling := rfl
@[simp] theorem setPeer_clock (st : Station) (p : Peer) (s : State) : (setPeer st p s).clock = s.clock := rfl
@[simp] theorem setPeer_detector (st : Station) (p : Peer) (s : State) : (setPeer st p s).detector = s.detector := rfl
@[simp] theorem setPeer_capture (st : Station) (p : Peer) (s : State) : (setPeer st p s).capture = s.capture := rfl
@[simp] theorem setPeer_harmonic (st : Station) (p : Peer) (s : State) : (setPeer st p s).harmonic = s.harmonic := rfl
@[simp] theorem setPeer_store (st : Station) (p : Peer) (s : State) : (setPeer st p s).store = s.store := rfl
@[simp] theorem setPeer_notes (st : Station) (p : Peer) (s : State) : (setPeer st p s).notes = s.notes := rfl
@[simp] theorem setPeer_agreement (st : Station) (p : Peer) (s : State) : (setPeer st p s).agreement = s.agreement := rfl
@[simp] theorem setPeer_composer (st : Station) (p : Peer) (s : State) : (setPeer st p s).composer = s.composer := rfl
@[simp] theorem setPeer_printer (st : Station) (p : Peer) (s : State) : (setPeer st p s).printer = s.printer := rfl
@[simp] theorem setPeer_link (st : Station) (p : Peer) (s : State) : (setPeer st p s).link = s.link := rfl
@[simp] theorem setPeer_survey (st : Station) (p : Peer) (s : State) : (setPeer st p s).survey = s.survey := rfl
@[simp] theorem setPeer_supply (st : Station) (p : Peer) (s : State) : (setPeer st p s).supply = s.supply := rfl

/-! ### `modifyPeer` -/

@[simp] theorem modifyPeer_pending (st : Station) (f : Peer → Peer) (s : State) : (modifyPeer st f s).pending = s.pending := rfl
@[simp] theorem modifyPeer_now (st : Station) (f : Peer → Peer) (s : State) : (modifyPeer st f s).now = s.now := rfl
@[simp] theorem modifyPeer_powered (st : Station) (f : Peer → Peer) (s : State) : (modifyPeer st f s).powered = s.powered := rfl
@[simp] theorem modifyPeer_freeUses (st : Station) (f : Peer → Peer) (s : State) : (modifyPeer st f s).freeUses = s.freeUses := rfl
@[simp] theorem modifyPeer_pins (st : Station) (f : Peer → Peer) (s : State) : (modifyPeer st f s).pins = s.pins := rfl
@[simp] theorem modifyPeer_retained (st : Station) (f : Peer → Peer) (s : State) : (modifyPeer st f s).retained = s.retained := rfl
@[simp] theorem modifyPeer_sampling (st : Station) (f : Peer → Peer) (s : State) : (modifyPeer st f s).sampling = s.sampling := rfl
@[simp] theorem modifyPeer_clock (st : Station) (f : Peer → Peer) (s : State) : (modifyPeer st f s).clock = s.clock := rfl
@[simp] theorem modifyPeer_detector (st : Station) (f : Peer → Peer) (s : State) : (modifyPeer st f s).detector = s.detector := rfl
@[simp] theorem modifyPeer_capture (st : Station) (f : Peer → Peer) (s : State) : (modifyPeer st f s).capture = s.capture := rfl
@[simp] theorem modifyPeer_harmonic (st : Station) (f : Peer → Peer) (s : State) : (modifyPeer st f s).harmonic = s.harmonic := rfl
@[simp] theorem modifyPeer_store (st : Station) (f : Peer → Peer) (s : State) : (modifyPeer st f s).store = s.store := rfl
@[simp] theorem modifyPeer_notes (st : Station) (f : Peer → Peer) (s : State) : (modifyPeer st f s).notes = s.notes := rfl
@[simp] theorem modifyPeer_agreement (st : Station) (f : Peer → Peer) (s : State) : (modifyPeer st f s).agreement = s.agreement := rfl
@[simp] theorem modifyPeer_composer (st : Station) (f : Peer → Peer) (s : State) : (modifyPeer st f s).composer = s.composer := rfl
@[simp] theorem modifyPeer_printer (st : Station) (f : Peer → Peer) (s : State) : (modifyPeer st f s).printer = s.printer := rfl
@[simp] theorem modifyPeer_link (st : Station) (f : Peer → Peer) (s : State) : (modifyPeer st f s).link = s.link := rfl
@[simp] theorem modifyPeer_survey (st : Station) (f : Peer → Peer) (s : State) : (modifyPeer st f s).survey = s.survey := rfl
@[simp] theorem modifyPeer_supply (st : Station) (f : Peer → Peer) (s : State) : (modifyPeer st f s).supply = s.supply := rfl

/-! ### `setWaitFree` -/

@[simp] theorem setWaitFree_pending (v : Option Nat) (s : State) : (setWaitFree v s).pending = s.pending := rfl
@[simp] theorem setWaitFree_now (v : Option Nat) (s : State) : (setWaitFree v s).now = s.now := rfl
@[simp] theorem setWaitFree_powered (v : Option Nat) (s : State) : (setWaitFree v s).powered = s.powered := rfl
@[simp] theorem setWaitFree_freeUses (v : Option Nat) (s : State) : (setWaitFree v s).freeUses = s.freeUses := rfl
@[simp] theorem setWaitFree_pins (v : Option Nat) (s : State) : (setWaitFree v s).pins = s.pins := rfl
@[simp] theorem setWaitFree_retained (v : Option Nat) (s : State) : (setWaitFree v s).retained = s.retained := rfl
@[simp] theorem setWaitFree_sampling (v : Option Nat) (s : State) : (setWaitFree v s).sampling = s.sampling := rfl
@[simp] theorem setWaitFree_clock (v : Option Nat) (s : State) : (setWaitFree v s).clock = s.clock := rfl
@[simp] theorem setWaitFree_detector (v : Option Nat) (s : State) : (setWaitFree v s).detector = s.detector := rfl
@[simp] theorem setWaitFree_capture (v : Option Nat) (s : State) : (setWaitFree v s).capture = s.capture := rfl
@[simp] theorem setWaitFree_harmonic (v : Option Nat) (s : State) : (setWaitFree v s).harmonic = s.harmonic := rfl
@[simp] theorem setWaitFree_store (v : Option Nat) (s : State) : (setWaitFree v s).store = s.store := rfl
@[simp] theorem setWaitFree_notes (v : Option Nat) (s : State) : (setWaitFree v s).notes = s.notes := rfl
@[simp] theorem setWaitFree_agreement (v : Option Nat) (s : State) : (setWaitFree v s).agreement = s.agreement := rfl
@[simp] theorem setWaitFree_peers (v : Option Nat) (s : State) : (setWaitFree v s).peers = s.peers := rfl
@[simp] theorem setWaitFree_composer (v : Option Nat) (s : State) : (setWaitFree v s).composer = s.composer := rfl
@[simp] theorem setWaitFree_printer (v : Option Nat) (s : State) : (setWaitFree v s).printer = s.printer := rfl
@[simp] theorem setWaitFree_survey (v : Option Nat) (s : State) : (setWaitFree v s).survey = s.survey := rfl
@[simp] theorem setWaitFree_supply (v : Option Nat) (s : State) : (setWaitFree v s).supply = s.supply := rfl

/-! ### `countBadLength` -/

@[simp] theorem countBadLength_pending (s : State) : (countBadLength s).pending = s.pending := rfl
@[simp] theorem countBadLength_now (s : State) : (countBadLength s).now = s.now := rfl
@[simp] theorem countBadLength_powered (s : State) : (countBadLength s).powered = s.powered := rfl
@[simp] theorem countBadLength_freeUses (s : State) : (countBadLength s).freeUses = s.freeUses := rfl
@[simp] theorem countBadLength_pins (s : State) : (countBadLength s).pins = s.pins := rfl
@[simp] theorem countBadLength_retained (s : State) : (countBadLength s).retained = s.retained := rfl
@[simp] theorem countBadLength_sampling (s : State) : (countBadLength s).sampling = s.sampling := rfl
@[simp] theorem countBadLength_clock (s : State) : (countBadLength s).clock = s.clock := rfl
@[simp] theorem countBadLength_detector (s : State) : (countBadLength s).detector = s.detector := rfl
@[simp] theorem countBadLength_capture (s : State) : (countBadLength s).capture = s.capture := rfl
@[simp] theorem countBadLength_harmonic (s : State) : (countBadLength s).harmonic = s.harmonic := rfl
@[simp] theorem countBadLength_store (s : State) : (countBadLength s).store = s.store := rfl
@[simp] theorem countBadLength_notes (s : State) : (countBadLength s).notes = s.notes := rfl
@[simp] theorem countBadLength_agreement (s : State) : (countBadLength s).agreement = s.agreement := rfl
@[simp] theorem countBadLength_peers (s : State) : (countBadLength s).peers = s.peers := rfl
@[simp] theorem countBadLength_composer (s : State) : (countBadLength s).composer = s.composer := rfl
@[simp] theorem countBadLength_printer (s : State) : (countBadLength s).printer = s.printer := rfl
@[simp] theorem countBadLength_survey (s : State) : (countBadLength s).survey = s.survey := rfl
@[simp] theorem countBadLength_supply (s : State) : (countBadLength s).supply = s.supply := rfl

/-! ### `countReceived` -/

@[simp] theorem countReceived_pending (s : State) : (countReceived s).pending = s.pending := rfl
@[simp] theorem countReceived_now (s : State) : (countReceived s).now = s.now := rfl
@[simp] theorem countReceived_powered (s : State) : (countReceived s).powered = s.powered := rfl
@[simp] theorem countReceived_freeUses (s : State) : (countReceived s).freeUses = s.freeUses := rfl
@[simp] theorem countReceived_pins (s : State) : (countReceived s).pins = s.pins := rfl
@[simp] theorem countReceived_retained (s : State) : (countReceived s).retained = s.retained := rfl
@[simp] theorem countReceived_sampling (s : State) : (countReceived s).sampling = s.sampling := rfl
@[simp] theorem countReceived_clock (s : State) : (countReceived s).clock = s.clock := rfl
@[simp] theorem countReceived_detector (s : State) : (countReceived s).detector = s.detector := rfl
@[simp] theorem countReceived_capture (s : State) : (countReceived s).capture = s.capture := rfl
@[simp] theorem countReceived_harmonic (s : State) : (countReceived s).harmonic = s.harmonic := rfl
@[simp] theorem countReceived_store (s : State) : (countReceived s).store = s.store := rfl
@[simp] theorem countReceived_notes (s : State) : (countReceived s).notes = s.notes := rfl
@[simp] theorem countReceived_agreement (s : State) : (countReceived s).agreement = s.agreement := rfl
@[simp] theorem countReceived_peers (s : State) : (countReceived s).peers = s.peers := rfl
@[simp] theorem countReceived_composer (s : State) : (countReceived s).composer = s.composer := rfl
@[simp] theorem countReceived_printer (s : State) : (countReceived s).printer = s.printer := rfl
@[simp] theorem countReceived_survey (s : State) : (countReceived s).survey = s.survey := rfl
@[simp] theorem countReceived_supply (s : State) : (countReceived s).supply = s.supply := rfl

/-! ### `noLoopback` -/

@[simp] theorem noLoopback_pending (s : State) : (noLoopback s).pending = s.pending := rfl
@[simp] theorem noLoopback_now (s : State) : (noLoopback s).now = s.now := rfl
@[simp] theorem noLoopback_powered (s : State) : (noLoopback s).powered = s.powered := rfl
@[simp] theorem noLoopback_freeUses (s : State) : (noLoopback s).freeUses = s.freeUses := rfl
@[simp] theorem noLoopback_pins (s : State) : (noLoopback s).pins = s.pins := rfl
@[simp] theorem noLoopback_retained (s : State) : (noLoopback s).retained = s.retained := rfl
@[simp] theorem noLoopback_sampling (s : State) : (noLoopback s).sampling = s.sampling := rfl
@[simp] theorem noLoopback_clock (s : State) : (noLoopback s).clock = s.clock := rfl
@[simp] theorem noLoopback_detector (s : State) : (noLoopback s).detector = s.detector := rfl
@[simp] theorem noLoopback_capture (s : State) : (noLoopback s).capture = s.capture := rfl
@[simp] theorem noLoopback_harmonic (s : State) : (noLoopback s).harmonic = s.harmonic := rfl
@[simp] theorem noLoopback_store (s : State) : (noLoopback s).store = s.store := rfl
@[simp] theorem noLoopback_notes (s : State) : (noLoopback s).notes = s.notes := rfl
@[simp] theorem noLoopback_agreement (s : State) : (noLoopback s).agreement = s.agreement := rfl
@[simp] theorem noLoopback_peers (s : State) : (noLoopback s).peers = s.peers := rfl
@[simp] theorem noLoopback_composer (s : State) : (noLoopback s).composer = s.composer := rfl
@[simp] theorem noLoopback_printer (s : State) : (noLoopback s).printer = s.printer := rfl
@[simp] theorem noLoopback_survey (s : State) : (noLoopback s).survey = s.survey := rfl
@[simp] theorem noLoopback_supply (s : State) : (noLoopback s).supply = s.supply := rfl

/-! ### `handed` -/

@[simp] theorem handed_pending (g : TxFrame) (s : State) : (handed g s).pending = s.pending := rfl
@[simp] theorem handed_now (g : TxFrame) (s : State) : (handed g s).now = s.now := rfl
@[simp] theorem handed_powered (g : TxFrame) (s : State) : (handed g s).powered = s.powered := rfl
@[simp] theorem handed_freeUses (g : TxFrame) (s : State) : (handed g s).freeUses = s.freeUses := rfl
@[simp] theorem handed_pins (g : TxFrame) (s : State) : (handed g s).pins = s.pins := rfl
@[simp] theorem handed_retained (g : TxFrame) (s : State) : (handed g s).retained = s.retained := rfl
@[simp] theorem handed_sampling (g : TxFrame) (s : State) : (handed g s).sampling = s.sampling := rfl
@[simp] theorem handed_clock (g : TxFrame) (s : State) : (handed g s).clock = s.clock := rfl
@[simp] theorem handed_detector (g : TxFrame) (s : State) : (handed g s).detector = s.detector := rfl
@[simp] theorem handed_capture (g : TxFrame) (s : State) : (handed g s).capture = s.capture := rfl
@[simp] theorem handed_harmonic (g : TxFrame) (s : State) : (handed g s).harmonic = s.harmonic := rfl
@[simp] theorem handed_store (g : TxFrame) (s : State) : (handed g s).store = s.store := rfl
@[simp] theorem handed_notes (g : TxFrame) (s : State) : (handed g s).notes = s.notes := rfl
@[simp] theorem handed_agreement (g : TxFrame) (s : State) : (handed g s).agreement = s.agreement := rfl
@[simp] theorem handed_peers (g : TxFrame) (s : State) : (handed g s).peers = s.peers := rfl
@[simp] theorem handed_composer (g : TxFrame) (s : State) : (handed g s).composer = s.composer := rfl
@[simp] theorem handed_printer (g : TxFrame) (s : State) : (handed g s).printer = s.printer := rfl
@[simp] theorem handed_survey (g : TxFrame) (s : State) : (handed g s).survey = s.survey := rfl
@[simp] theorem handed_supply (g : TxFrame) (s : State) : (handed g s).supply = s.supply := rfl

/-! ### `sentTo` -/

@[simp] theorem sentTo_pending (st : Station) (k : FrameKind) (bs : List Byte) (s : State) : (sentTo st k bs s).pending = s.pending := rfl
@[simp] theorem sentTo_now (st : Station) (k : FrameKind) (bs : List Byte) (s : State) : (sentTo st k bs s).now = s.now := rfl
@[simp] theorem sentTo_powered (st : Station) (k : FrameKind) (bs : List Byte) (s : State) : (sentTo st k bs s).powered = s.powered := rfl
@[simp] theorem sentTo_freeUses (st : Station) (k : FrameKind) (bs : List Byte) (s : State) : (sentTo st k bs s).freeUses = s.freeUses := rfl
@[simp] theorem sentTo_pins (st : Station) (k : FrameKind) (bs : List Byte) (s : State) : (sentTo st k bs s).pins = s.pins := rfl
@[simp] theorem sentTo_retained (st : Station) (k : FrameKind) (bs : List Byte) (s : State) : (sentTo st k bs s).retained = s.retained := rfl
@[simp] theorem sentTo_sampling (st : Station) (k : FrameKind) (bs : List Byte) (s : State) : (sentTo st k bs s).sampling = s.sampling := rfl
@[simp] theorem sentTo_clock (st : Station) (k : FrameKind) (bs : List Byte) (s : State) : (sentTo st k bs s).clock = s.clock := rfl
@[simp] theorem sentTo_detector (st : Station) (k : FrameKind) (bs : List Byte) (s : State) : (sentTo st k bs s).detector = s.detector := rfl
@[simp] theorem sentTo_capture (st : Station) (k : FrameKind) (bs : List Byte) (s : State) : (sentTo st k bs s).capture = s.capture := rfl
@[simp] theorem sentTo_harmonic (st : Station) (k : FrameKind) (bs : List Byte) (s : State) : (sentTo st k bs s).harmonic = s.harmonic := rfl
@[simp] theorem sentTo_store (st : Station) (k : FrameKind) (bs : List Byte) (s : State) : (sentTo st k bs s).store = s.store := rfl
@[simp] theorem sentTo_notes (st : Station) (k : FrameKind) (bs : List Byte) (s : State) : (sentTo st k bs s).notes = s.notes := rfl
@[simp] theorem sentTo_agreement (st : Station) (k : FrameKind) (bs : List Byte) (s : State) : (sentTo st k bs s).agreement = s.agreement := rfl
@[simp] theorem sentTo_peers (st : Station) (k : FrameKind) (bs : List Byte) (s : State) : (sentTo st k bs s).peers = s.peers := rfl
@[simp] theorem sentTo_composer (st : Station) (k : FrameKind) (bs : List Byte) (s : State) : (sentTo st k bs s).composer = s.composer := rfl
@[simp] theorem sentTo_printer (st : Station) (k : FrameKind) (bs : List Byte) (s : State) : (sentTo st k bs s).printer = s.printer := rfl
@[simp] theorem sentTo_survey (st : Station) (k : FrameKind) (bs : List Byte) (s : State) : (sentTo st k bs s).survey = s.survey := rfl
@[simp] theorem sentTo_supply (st : Station) (k : FrameKind) (bs : List Byte) (s : State) : (sentTo st k bs s).supply = s.supply := rfl

/-! ### `answered` -/

@[simp] theorem answered_pending (f : RxFrame) (k : FrameKind) (r : Reply) (s : State) : (answered f k r s).pending = s.pending := rfl
@[simp] theorem answered_now (f : RxFrame) (k : FrameKind) (r : Reply) (s : State) : (answered f k r s).now = s.now := rfl
@[simp] theorem answered_powered (f : RxFrame) (k : FrameKind) (r : Reply) (s : State) : (answered f k r s).powered = s.powered := rfl
@[simp] theorem answered_freeUses (f : RxFrame) (k : FrameKind) (r : Reply) (s : State) : (answered f k r s).freeUses = s.freeUses := rfl
@[simp] theorem answered_pins (f : RxFrame) (k : FrameKind) (r : Reply) (s : State) : (answered f k r s).pins = s.pins := rfl
@[simp] theorem answered_retained (f : RxFrame) (k : FrameKind) (r : Reply) (s : State) : (answered f k r s).retained = s.retained := rfl
@[simp] theorem answered_sampling (f : RxFrame) (k : FrameKind) (r : Reply) (s : State) : (answered f k r s).sampling = s.sampling := rfl
@[simp] theorem answered_clock (f : RxFrame) (k : FrameKind) (r : Reply) (s : State) : (answered f k r s).clock = s.clock := rfl
@[simp] theorem answered_detector (f : RxFrame) (k : FrameKind) (r : Reply) (s : State) : (answered f k r s).detector = s.detector := rfl
@[simp] theorem answered_capture (f : RxFrame) (k : FrameKind) (r : Reply) (s : State) : (answered f k r s).capture = s.capture := rfl
@[simp] theorem answered_harmonic (f : RxFrame) (k : FrameKind) (r : Reply) (s : State) : (answered f k r s).harmonic = s.harmonic := rfl
@[simp] theorem answered_store (f : RxFrame) (k : FrameKind) (r : Reply) (s : State) : (answered f k r s).store = s.store := rfl
@[simp] theorem answered_notes (f : RxFrame) (k : FrameKind) (r : Reply) (s : State) : (answered f k r s).notes = s.notes := rfl
@[simp] theorem answered_agreement (f : RxFrame) (k : FrameKind) (r : Reply) (s : State) : (answered f k r s).agreement = s.agreement := rfl
@[simp] theorem answered_peers (f : RxFrame) (k : FrameKind) (r : Reply) (s : State) : (answered f k r s).peers = s.peers := rfl
@[simp] theorem answered_composer (f : RxFrame) (k : FrameKind) (r : Reply) (s : State) : (answered f k r s).composer = s.composer := rfl
@[simp] theorem answered_printer (f : RxFrame) (k : FrameKind) (r : Reply) (s : State) : (answered f k r s).printer = s.printer := rfl
@[simp] theorem answered_survey (f : RxFrame) (k : FrameKind) (r : Reply) (s : State) : (answered f k r s).survey = s.survey := rfl
@[simp] theorem answered_supply (f : RxFrame) (k : FrameKind) (r : Reply) (s : State) : (answered f k r s).supply = s.supply := rfl

/-! ### `heard` -/

@[simp] theorem heard_pending (f : RxFrame) (s : State) : (heard f s).pending = s.pending := rfl
@[simp] theorem heard_now (f : RxFrame) (s : State) : (heard f s).now = s.now := rfl
@[simp] theorem heard_powered (f : RxFrame) (s : State) : (heard f s).powered = s.powered := rfl
@[simp] theorem heard_freeUses (f : RxFrame) (s : State) : (heard f s).freeUses = s.freeUses := rfl
@[simp] theorem heard_pins (f : RxFrame) (s : State) : (heard f s).pins = s.pins := rfl
@[simp] theorem heard_retained (f : RxFrame) (s : State) : (heard f s).retained = s.retained := rfl
@[simp] theorem heard_sampling (f : RxFrame) (s : State) : (heard f s).sampling = s.sampling := rfl
@[simp] theorem heard_clock (f : RxFrame) (s : State) : (heard f s).clock = s.clock := rfl
@[simp] theorem heard_detector (f : RxFrame) (s : State) : (heard f s).detector = s.detector := rfl
@[simp] theorem heard_capture (f : RxFrame) (s : State) : (heard f s).capture = s.capture := rfl
@[simp] theorem heard_harmonic (f : RxFrame) (s : State) : (heard f s).harmonic = s.harmonic := rfl
@[simp] theorem heard_store (f : RxFrame) (s : State) : (heard f s).store = s.store := rfl
@[simp] theorem heard_notes (f : RxFrame) (s : State) : (heard f s).notes = s.notes := rfl
@[simp] theorem heard_agreement (f : RxFrame) (s : State) : (heard f s).agreement = s.agreement := rfl
@[simp] theorem heard_composer (f : RxFrame) (s : State) : (heard f s).composer = s.composer := rfl
@[simp] theorem heard_printer (f : RxFrame) (s : State) : (heard f s).printer = s.printer := rfl
@[simp] theorem heard_survey (f : RxFrame) (s : State) : (heard f s).survey = s.survey := rfl
@[simp] theorem heard_supply (f : RxFrame) (s : State) : (heard f s).supply = s.supply := rfl

/-! ### `setRetainedSeconds` -/

@[simp] theorem setRetainedSeconds_pending (v : Nat) (s : State) : (setRetainedSeconds v s).pending = s.pending := rfl
@[simp] theorem setRetainedSeconds_now (v : Nat) (s : State) : (setRetainedSeconds v s).now = s.now := rfl
@[simp] theorem setRetainedSeconds_powered (v : Nat) (s : State) : (setRetainedSeconds v s).powered = s.powered := rfl
@[simp] theorem setRetainedSeconds_pins (v : Nat) (s : State) : (setRetainedSeconds v s).pins = s.pins := rfl
@[simp] theorem setRetainedSeconds_sampling (v : Nat) (s : State) : (setRetainedSeconds v s).sampling = s.sampling := rfl
@[simp] theorem setRetainedSeconds_clock (v : Nat) (s : State) : (setRetainedSeconds v s).clock = s.clock := rfl
@[simp] theorem setRetainedSeconds_detector (v : Nat) (s : State) : (setRetainedSeconds v s).detector = s.detector := rfl
@[simp] theorem setRetainedSeconds_capture (v : Nat) (s : State) : (setRetainedSeconds v s).capture = s.capture := rfl
@[simp] theorem setRetainedSeconds_harmonic (v : Nat) (s : State) : (setRetainedSeconds v s).harmonic = s.harmonic := rfl
@[simp] theorem setRetainedSeconds_store (v : Nat) (s : State) : (setRetainedSeconds v s).store = s.store := rfl
@[simp] theorem setRetainedSeconds_notes (v : Nat) (s : State) : (setRetainedSeconds v s).notes = s.notes := rfl
@[simp] theorem setRetainedSeconds_agreement (v : Nat) (s : State) : (setRetainedSeconds v s).agreement = s.agreement := rfl
@[simp] theorem setRetainedSeconds_peers (v : Nat) (s : State) : (setRetainedSeconds v s).peers = s.peers := rfl
@[simp] theorem setRetainedSeconds_composer (v : Nat) (s : State) : (setRetainedSeconds v s).composer = s.composer := rfl
@[simp] theorem setRetainedSeconds_printer (v : Nat) (s : State) : (setRetainedSeconds v s).printer = s.printer := rfl
@[simp] theorem setRetainedSeconds_link (v : Nat) (s : State) : (setRetainedSeconds v s).link = s.link := rfl
@[simp] theorem setRetainedSeconds_survey (v : Nat) (s : State) : (setRetainedSeconds v s).survey = s.survey := rfl
@[simp] theorem setRetainedSeconds_supply (v : Nat) (s : State) : (setRetainedSeconds v s).supply = s.supply := rfl

/-! ### `modifyEntry` -/

@[simp] theorem modifyEntry_pending (id : Nat) (f : Entry → Entry) (s : State) : (modifyEntry id f s).pending = s.pending := rfl
@[simp] theorem modifyEntry_now (id : Nat) (f : Entry → Entry) (s : State) : (modifyEntry id f s).now = s.now := rfl
@[simp] theorem modifyEntry_powered (id : Nat) (f : Entry → Entry) (s : State) : (modifyEntry id f s).powered = s.powered := rfl
@[simp] theorem modifyEntry_freeUses (id : Nat) (f : Entry → Entry) (s : State) : (modifyEntry id f s).freeUses = s.freeUses := rfl
@[simp] theorem modifyEntry_pins (id : Nat) (f : Entry → Entry) (s : State) : (modifyEntry id f s).pins = s.pins := rfl
@[simp] theorem modifyEntry_retained (id : Nat) (f : Entry → Entry) (s : State) : (modifyEntry id f s).retained = s.retained := rfl
@[simp] theorem modifyEntry_sampling (id : Nat) (f : Entry → Entry) (s : State) : (modifyEntry id f s).sampling = s.sampling := rfl
@[simp] theorem modifyEntry_clock (id : Nat) (f : Entry → Entry) (s : State) : (modifyEntry id f s).clock = s.clock := rfl
@[simp] theorem modifyEntry_detector (id : Nat) (f : Entry → Entry) (s : State) : (modifyEntry id f s).detector = s.detector := rfl
@[simp] theorem modifyEntry_capture (id : Nat) (f : Entry → Entry) (s : State) : (modifyEntry id f s).capture = s.capture := rfl
@[simp] theorem modifyEntry_harmonic (id : Nat) (f : Entry → Entry) (s : State) : (modifyEntry id f s).harmonic = s.harmonic := rfl
@[simp] theorem modifyEntry_notes (id : Nat) (f : Entry → Entry) (s : State) : (modifyEntry id f s).notes = s.notes := rfl
@[simp] theorem modifyEntry_agreement (id : Nat) (f : Entry → Entry) (s : State) : (modifyEntry id f s).agreement = s.agreement := rfl
@[simp] theorem modifyEntry_peers (id : Nat) (f : Entry → Entry) (s : State) : (modifyEntry id f s).peers = s.peers := rfl
@[simp] theorem modifyEntry_composer (id : Nat) (f : Entry → Entry) (s : State) : (modifyEntry id f s).composer = s.composer := rfl
@[simp] theorem modifyEntry_printer (id : Nat) (f : Entry → Entry) (s : State) : (modifyEntry id f s).printer = s.printer := rfl
@[simp] theorem modifyEntry_link (id : Nat) (f : Entry → Entry) (s : State) : (modifyEntry id f s).link = s.link := rfl
@[simp] theorem modifyEntry_survey (id : Nat) (f : Entry → Entry) (s : State) : (modifyEntry id f s).survey = s.survey := rfl
@[simp] theorem modifyEntry_supply (id : Nat) (f : Entry → Entry) (s : State) : (modifyEntry id f s).supply = s.supply := rfl

/-! ### `setHold` -/

@[simp] theorem setHold_pending (id : Nat) (v : Bool) (s : State) : (setHold id v s).pending = s.pending := rfl
@[simp] theorem setHold_now (id : Nat) (v : Bool) (s : State) : (setHold id v s).now = s.now := rfl
@[simp] theorem setHold_powered (id : Nat) (v : Bool) (s : State) : (setHold id v s).powered = s.powered := rfl
@[simp] theorem setHold_freeUses (id : Nat) (v : Bool) (s : State) : (setHold id v s).freeUses = s.freeUses := rfl
@[simp] theorem setHold_pins (id : Nat) (v : Bool) (s : State) : (setHold id v s).pins = s.pins := rfl
@[simp] theorem setHold_retained (id : Nat) (v : Bool) (s : State) : (setHold id v s).retained = s.retained := rfl
@[simp] theorem setHold_sampling (id : Nat) (v : Bool) (s : State) : (setHold id v s).sampling = s.sampling := rfl
@[simp] theorem setHold_clock (id : Nat) (v : Bool) (s : State) : (setHold id v s).clock = s.clock := rfl
@[simp] theorem setHold_detector (id : Nat) (v : Bool) (s : State) : (setHold id v s).detector = s.detector := rfl
@[simp] theorem setHold_capture (id : Nat) (v : Bool) (s : State) : (setHold id v s).capture = s.capture := rfl
@[simp] theorem setHold_harmonic (id : Nat) (v : Bool) (s : State) : (setHold id v s).harmonic = s.harmonic := rfl
@[simp] theorem setHold_notes (id : Nat) (v : Bool) (s : State) : (setHold id v s).notes = s.notes := rfl
@[simp] theorem setHold_agreement (id : Nat) (v : Bool) (s : State) : (setHold id v s).agreement = s.agreement := rfl
@[simp] theorem setHold_peers (id : Nat) (v : Bool) (s : State) : (setHold id v s).peers = s.peers := rfl
@[simp] theorem setHold_composer (id : Nat) (v : Bool) (s : State) : (setHold id v s).composer = s.composer := rfl
@[simp] theorem setHold_printer (id : Nat) (v : Bool) (s : State) : (setHold id v s).printer = s.printer := rfl
@[simp] theorem setHold_link (id : Nat) (v : Bool) (s : State) : (setHold id v s).link = s.link := rfl
@[simp] theorem setHold_survey (id : Nat) (v : Bool) (s : State) : (setHold id v s).survey = s.survey := rfl
@[simp] theorem setHold_supply (id : Nat) (v : Bool) (s : State) : (setHold id v s).supply = s.supply := rfl

/-! ### `setSlot` -/

@[simp] theorem setSlot_pending (i : Fin 4) (v : Option Slot) (s : State) : (setSlot i v s).pending = s.pending := rfl
@[simp] theorem setSlot_now (i : Fin 4) (v : Option Slot) (s : State) : (setSlot i v s).now = s.now := rfl
@[simp] theorem setSlot_powered (i : Fin 4) (v : Option Slot) (s : State) : (setSlot i v s).powered = s.powered := rfl
@[simp] theorem setSlot_freeUses (i : Fin 4) (v : Option Slot) (s : State) : (setSlot i v s).freeUses = s.freeUses := rfl
@[simp] theorem setSlot_pins (i : Fin 4) (v : Option Slot) (s : State) : (setSlot i v s).pins = s.pins := rfl
@[simp] theorem setSlot_retained (i : Fin 4) (v : Option Slot) (s : State) : (setSlot i v s).retained = s.retained := rfl
@[simp] theorem setSlot_sampling (i : Fin 4) (v : Option Slot) (s : State) : (setSlot i v s).sampling = s.sampling := rfl
@[simp] theorem setSlot_clock (i : Fin 4) (v : Option Slot) (s : State) : (setSlot i v s).clock = s.clock := rfl
@[simp] theorem setSlot_detector (i : Fin 4) (v : Option Slot) (s : State) : (setSlot i v s).detector = s.detector := rfl
@[simp] theorem setSlot_harmonic (i : Fin 4) (v : Option Slot) (s : State) : (setSlot i v s).harmonic = s.harmonic := rfl
@[simp] theorem setSlot_store (i : Fin 4) (v : Option Slot) (s : State) : (setSlot i v s).store = s.store := rfl
@[simp] theorem setSlot_notes (i : Fin 4) (v : Option Slot) (s : State) : (setSlot i v s).notes = s.notes := rfl
@[simp] theorem setSlot_agreement (i : Fin 4) (v : Option Slot) (s : State) : (setSlot i v s).agreement = s.agreement := rfl
@[simp] theorem setSlot_peers (i : Fin 4) (v : Option Slot) (s : State) : (setSlot i v s).peers = s.peers := rfl
@[simp] theorem setSlot_composer (i : Fin 4) (v : Option Slot) (s : State) : (setSlot i v s).composer = s.composer := rfl
@[simp] theorem setSlot_printer (i : Fin 4) (v : Option Slot) (s : State) : (setSlot i v s).printer = s.printer := rfl
@[simp] theorem setSlot_link (i : Fin 4) (v : Option Slot) (s : State) : (setSlot i v s).link = s.link := rfl
@[simp] theorem setSlot_survey (i : Fin 4) (v : Option Slot) (s : State) : (setSlot i v s).survey = s.survey := rfl
@[simp] theorem setSlot_supply (i : Fin 4) (v : Option Slot) (s : State) : (setSlot i v s).supply = s.supply := rfl

/-! ### `setInterval` -/

@[simp] theorem setInterval_pending (i : Option Interval) (s : State) : (setInterval i s).pending = s.pending := rfl
@[simp] theorem setInterval_now (i : Option Interval) (s : State) : (setInterval i s).now = s.now := rfl
@[simp] theorem setInterval_powered (i : Option Interval) (s : State) : (setInterval i s).powered = s.powered := rfl
@[simp] theorem setInterval_freeUses (i : Option Interval) (s : State) : (setInterval i s).freeUses = s.freeUses := rfl
@[simp] theorem setInterval_pins (i : Option Interval) (s : State) : (setInterval i s).pins = s.pins := rfl
@[simp] theorem setInterval_retained (i : Option Interval) (s : State) : (setInterval i s).retained = s.retained := rfl
@[simp] theorem setInterval_sampling (i : Option Interval) (s : State) : (setInterval i s).sampling = s.sampling := rfl
@[simp] theorem setInterval_clock (i : Option Interval) (s : State) : (setInterval i s).clock = s.clock := rfl
@[simp] theorem setInterval_detector (i : Option Interval) (s : State) : (setInterval i s).detector = s.detector := rfl
@[simp] theorem setInterval_capture (i : Option Interval) (s : State) : (setInterval i s).capture = s.capture := rfl
@[simp] theorem setInterval_store (i : Option Interval) (s : State) : (setInterval i s).store = s.store := rfl
@[simp] theorem setInterval_notes (i : Option Interval) (s : State) : (setInterval i s).notes = s.notes := rfl
@[simp] theorem setInterval_agreement (i : Option Interval) (s : State) : (setInterval i s).agreement = s.agreement := rfl
@[simp] theorem setInterval_peers (i : Option Interval) (s : State) : (setInterval i s).peers = s.peers := rfl
@[simp] theorem setInterval_composer (i : Option Interval) (s : State) : (setInterval i s).composer = s.composer := rfl
@[simp] theorem setInterval_printer (i : Option Interval) (s : State) : (setInterval i s).printer = s.printer := rfl
@[simp] theorem setInterval_link (i : Option Interval) (s : State) : (setInterval i s).link = s.link := rfl
@[simp] theorem setInterval_survey (i : Option Interval) (s : State) : (setInterval i s).survey = s.survey := rfl
@[simp] theorem setInterval_supply (i : Option Interval) (s : State) : (setInterval i s).supply = s.supply := rfl

/-! ### The fields the updates do change -/

@[simp] theorem setPeer_peers (st : Station) (p : Peer) (s : State) : (setPeer st p s).peers = s.peers.set st p := rfl
@[simp] theorem setWaitFree_link (v : Option Nat) (s : State) : (setWaitFree v s).link = { s.link with waitFree := v } := rfl
@[simp] theorem countBadLength_link (s : State) :
    (countBadLength s).link = { s.link with badLengths := min 65535 (s.link.badLengths + 1) } := rfl
@[simp] theorem countReceived_link (s : State) :
    (countReceived s).link = { s.link with received := min 65535 (s.link.received + 1) } := rfl
@[simp] theorem noLoopback_link (s : State) : (noLoopback s).link = { s.link with loopback := [] } := rfl
@[simp] theorem handed_link (g : TxFrame) (s : State) : (handed g s).link = (s.link.handOver g).1 := rfl
@[simp] theorem heard_link (f : RxFrame) (s : State) : (heard f s).link
    = { s.link with waitFree := none, received := min 65535 (s.link.received + 1) } := rfl
@[simp] theorem modifyEntry_store (id : Nat) (f : Entry → Entry) (s : State) : (modifyEntry id f s).store
    = { s.store with dir := s.store.dir.map fun e => if e.id == id then f e else e } := rfl

/-! ### Peer entries -/

@[simp] theorem peer_setPeer_same (st : Station) (p : Peer) (s : State) : peer (setPeer st p s) st = p := by
  simp [peer]

theorem peer_setPeer_other {st other : Station} (h : other ≠ st) (p : Peer) (s : State) :
    peer (setPeer st p s) other = peer s other := by
  have : st.val ≠ other.val := fun e => h (Fin.ext e.symm)
  simp [peer, this]

@[simp] theorem peer_modifyPeer_same (st : Station) (f : Peer → Peer) (s : State) :
    peer (modifyPeer st f s) st = f (peer s st) := peer_setPeer_same ..

theorem peer_modifyPeer_other {st other : Station} (h : other ≠ st) (f : Peer → Peer) (s : State) :
    peer (modifyPeer st f s) other = peer s other := peer_setPeer_other h ..

@[simp] theorem ownStation_setPeer (st : Station) (p : Peer) (s : State) : ownStation (setPeer st p s) = ownStation s :=
  rfl
@[simp] theorem ownStation_heard (f : RxFrame) (s : State) : ownStation (heard f s) = ownStation s := rfl
@[simp] theorem ownStation_noLoopback (s : State) : ownStation (noLoopback s) = ownStation s := rfl
@[simp] theorem ownStation_handed (g : TxFrame) (s : State) : ownStation (handed g s) = ownStation s := rfl

@[simp] theorem peer_heard_same (f : RxFrame) (s : State) :
    peer (heard f s) f.sender = { peer s f.sender with lastHeard := s.now } := by
  simp [heard, peer]

theorem peer_heard_other {f : RxFrame} {other : Station} (h : other ≠ f.sender) (s : State) :
    peer (heard f s) other = peer s other := by
  have : f.sender.val ≠ other.val := fun e => h (Fin.ext e.symm)
  simp [heard, peer, this]

/-! ### Capture slots -/

@[simp] theorem slot_setSlot_same (i : Fin 4) (c : Option Slot) (s : State) : slot (setSlot i c s) i = c := by
  simp [slot, setSlot]

theorem slot_setSlot_other {i j : Fin 4} (h : j ≠ i) (c : Option Slot) (s : State) :
    slot (setSlot i c s) j = slot s j := by
  have : i.val ≠ j.val := fun e => h (Fin.ext e.symm)
  simp [slot, setSlot, this]

end Sys2Proof.Machine
end

