-- ==== Sys2Proof/Laws/Link.lean ====
section
/-! SUPPORT. What each shared operation of the line can do, said once: the running gate, timers, judging a frame, frames
handed over, answers to requests. -/

namespace Sys2Proof.Machine

/-! ### The gate and the timers (R184, log 2, log 5) -/

@[simp] theorem whileRunning_powered {s : State} (h : s.powered = true) (f : State → State) :
    whileRunning f s = .next (f s) := by simp [whileRunning, h]

@[simp] theorem whileRunning_stopped {s : State} (h : s.powered = false) (f : State → State) :
    whileRunning f s = .next s := by simp [whileRunning, h]

@[simp] theorem onExpiry_idle (f : State → State) (s : State) : onExpiry none f s = s := rfl

@[simp] theorem onExpiry_due (d : Nat) (f : State → State) (s : State) :
    onExpiry (some d) f s = f { s with now := max s.now d } := rfl

/-! ### Judging a frame (R169) -/

/-- A delivered frame's sender is heard and the frame is counted, in whatever order. -/
theorem heard_eq (f : RxFrame) (s : State) :
    heard f s = countReceived (renewHeard f.sender (setWaitFree none s)) := rfl

/-- A frame that reaches the part is handed to its block. -/
theorem receive_delivered {f : RxFrame} {s : State} (h : Reaches f s) (act : State → State) :
    receive f act s = .next (act (heard f s)) := by
  obtain ⟨hp, hl, hu, ho⟩ := h
  have hl' : ¬120 < f.payload.length := by omega
  have ho' : f.sender ≠ ownStation (renewHeard f.sender (setWaitFree none s)) := ho
  have hu' : (!f.broadcast && f.dest != ownStation (renewHeard f.sender (setWaitFree none s))) = false := by
    change (!f.broadcast && f.dest != ownStation s) = false
    rcases hu with hu | hu <;> simp [hu]
  simp only [receive, whileRunning, hp, if_true, hl', if_false, judge, hu', ho', heard_eq, Bool.false_eq_true]

/-- A frame for another station only renews its sender's time (R169 step 4). -/
theorem receive_passed_over {f : RxFrame} {s : State} (hp : s.powered = true) (hl : f.payload.length ≤ 120)
    (hu : ¬IsForUs f s) (act : State → State) :
    receive f act s = .next (renewHeard f.sender (setWaitFree none s)) := by
  have hl' : ¬120 < f.payload.length := by omega
  have hu' : (!f.broadcast && f.dest != ownStation (renewHeard f.sender (setWaitFree none s))) = true := by
    change (!f.broadcast && f.dest != ownStation s) = true
    simp only [IsForUs, not_or] at hu
    simp [hu.1, hu.2]
  simp only [receive, whileRunning, hp, if_true, hl', if_false, judge, hu']

/-- A frame that bears this station's number sets LINK_SILENT (R169 step 5). -/
theorem receive_own_number {f : RxFrame} {s : State} (hp : s.powered = true) (hl : f.payload.length ≤ 120)
    (hu : IsForUs f s) (ho : f.sender = ownStation s) (act : State → State) :
    receive f act s = .next (setLinkSilent (renewHeard f.sender (setWaitFree none s))) := by
  have hl' : ¬120 < f.payload.length := by omega
  have ho' : f.sender = ownStation (renewHeard f.sender (setWaitFree none s)) := ho
  have hu' : (!f.broadcast && f.dest != ownStation (renewHeard f.sender (setWaitFree none s))) = false := by
    change (!f.broadcast && f.dest != ownStation s) = false
    rcases hu with hu | hu <;> simp [hu]
  unfold receive
  rw [whileRunning_powered hp, if_neg hl']
  unfold judge
  rw [hu', if_neg Bool.false_ne_true, if_pos ho']

/-- A frame longer than any payload may be is counted and delivered to no block (R169 step 1). -/
theorem receive_too_long {f : RxFrame} {s : State} (hp : s.powered = true) (hl : 120 < f.payload.length)
    (act : State → State) : receive f act s = .next (setWaitFree (some 0) (countBadLength s)) := by
  simp [receive, whileRunning, hp, hl]

/-- Every frame leaves a next state, and it is one of these (R169). -/
theorem receive_cases (f : RxFrame) (act : State → State) (s : State) :
    receive f act s = .next s
    ∨ receive f act s = .next (setWaitFree (some 0) (countBadLength s))
    ∨ receive f act s = .next (renewHeard f.sender (setWaitFree none s))
    ∨ receive f act s = .next (setLinkSilent (renewHeard f.sender (setWaitFree none s)))
    ∨ Reaches f s ∧ receive f act s = .next (act (heard f s)) := by
  by_cases hp : s.powered = true
  · by_cases hl : f.payload.length ≤ 120
    · by_cases hu : IsForUs f s
      · by_cases ho : f.sender = ownStation s
        · exact .inr (.inr (.inr (.inl (receive_own_number hp hl hu ho act))))
        · exact .inr (.inr (.inr (.inr ⟨⟨hp, hl, hu, ho⟩, receive_delivered ⟨hp, hl, hu, ho⟩ act⟩)))
      · exact .inr (.inr (.inl (receive_passed_over hp hl hu act)))
    · exact .inr (.inl (receive_too_long hp (by omega) act))
  · exact .inl (whileRunning_stopped (by simpa using hp) _)

/-- A frame of the length of its layout is taken (R187). -/
theorem takeFixed_fits {n : Nat} {f : RxFrame} (h : f.payload.length = n) (act : State → State) (s : State) :
    takeFixed n f act s = act s := by simp [takeFixed, takeLength, h]

/-- A frame of another length is counted bad (R187). -/
theorem takeFixed_misfits {n : Nat} {f : RxFrame} (h : f.payload.length ≠ n) (act : State → State) (s : State) :
    takeFixed n f act s = countBadLength s := by simp [takeFixed, takeLength, h]

/-! ### Frames handed over (R170, R171) -/

/-- A frame for another station goes to the transmit queue. -/
theorem send_other {s : State} {st : Station} (h : st ≠ ownStation s) (k : FrameKind) (bs : List Byte) :
    send k st bs s = sentTo st k bs s := by
  unfold send
  rw [if_neg h]
  rfl

/-- A frame for this station waits for loopback. -/
theorem send_own (k : FrameKind) (bs : List Byte) (s : State) :
    send k (ownStation s) bs s = { s with link := { s.link with
      loopback := s.link.loopback ++ [newFrame k (some (ownStation s)) bs] } } := by
  unfold send
  rw [if_pos rfl]

/-- A request from another station is answered to it. -/
theorem answer_other {f : RxFrame} {s : State} (h : f.sender ≠ ownStation s) (k : FrameKind) (r : Reply) :
    answer f k r s = answered f k r s := send_other h _ _

/-- A request that is acted on (R174). -/
theorem request_asked {f : RxFrame} {need : Nat} (hb : f.broadcast = false) (hl : f.payload.length = need)
    (k : FrameKind) (act : State → State) (s : State) : request k need f act s = act s := by
  simp [request, hb, lengthFault, hl]

/-- A request delivered as a broadcast is ignored (R174). -/
theorem request_broadcast {f : RxFrame} (hb : f.broadcast = true) (k : FrameKind) (need : Nat) (act : State → State)
    (s : State) : request k need f act s = s := by simp [request, hb]

/-- A request of the wrong length is refused BAD_FIELD with the first byte missing or in excess (R174, R187). -/
theorem request_wrong_length {f : RxFrame} {need : Nat} (hb : f.broadcast = false) (hl : f.payload.length ≠ need)
    (k : FrameKind) (act : State → State) (s : State) :
    request k need f act s
      = answer f k (.refused .badField (min f.payload.length need + 1)) s := by
  rcases Nat.lt_or_gt_of_ne hl with h | h
  · simp [request, hb, lengthFault, h, Nat.min_eq_left (Nat.le_of_lt h)]
  · have : ¬f.payload.length < need := by omega
    simp [request, hb, lengthFault, h, this, Nat.min_eq_right (Nat.le_of_lt h)]

/-- A request that reaches the part as asked is carried out on the state the frame finds. -/
theorem receive_request {f : RxFrame} {need : Nat} {s : State} (h : Asks f need s) (k : FrameKind)
    (act : State → State) : receive f (request k need f act) s = .next (act (heard f s)) := by
  rw [receive_delivered h.1, request_asked h.2.1 h.2.2]

/-- A frame joins the queue as one of its frames. -/
theorem joinQueue_perm (f : TxFrame) (q : List TxFrame) : (joinQueue f q).Perm (f :: q) := by
  induction q with
  | nil => exact .refl _
  | cons g gs ih =>
    unfold joinQueue
    split
    · exact (ih.cons g).trans (.swap f g gs)
    · exact .refl _

@[simp] theorem mem_joinQueue {f g : TxFrame} {q : List TxFrame} : g ∈ joinQueue f q ↔ g = f ∨ g ∈ q := by
  rw [(joinQueue_perm f q).mem_iff, List.mem_cons]

@[simp] theorem joinQueue_length (f : TxFrame) (q : List TxFrame) : (joinQueue f q).length = q.length + 1 := by
  simpa using (joinQueue_perm f q).length_eq

/-- Joining keeps the priority order (R171). -/
theorem joinQueue_sorted {f : TxFrame} {q : List TxFrame}
    (h : q.Pairwise fun a b => a.kind.priority ≤ b.kind.priority) :
    (joinQueue f q).Pairwise fun a b => a.kind.priority ≤ b.kind.priority := by
  induction q with
  | nil => simp [joinQueue]
  | cons g gs ih =>
    rw [List.pairwise_cons] at h
    unfold joinQueue
    split
    · rename_i hg
      refine List.pairwise_cons.2 ⟨fun x hx => ?_, ih h.2⟩
      rcases mem_joinQueue.1 hx with rfl | hx
      · exact hg
      · exact h.1 x hx
    · rename_i hg
      refine List.pairwise_cons.2 ⟨fun x hx => ?_, List.pairwise_cons.2 h⟩
      rcases List.mem_cons.1 hx with rfl | hx
      · omega
      · have := h.1 x hx; omega

/-- The last frame not in transmission, and the queue without it (R171). -/
theorem lastIdle_some {q rest : List TxFrame} {g : TxFrame} (h : lastIdle q = some (g, rest)) :
    ∃ a b, q = a ++ g :: b ∧ rest = a ++ b ∧ g.inTx = false ∧ ∀ x ∈ b, x.inTx = true := by
  induction q generalizing rest with
  | nil => cases h
  | cons x xs ih =>
    unfold lastIdle at h
    split at h
    · rename_i y r hy
      cases h
      obtain ⟨a, b, rfl, rfl, hg, hb⟩ := ih hy
      exact ⟨x :: a, b, rfl, rfl, hg, hb⟩
    · rename_i hn
      split at h
      · cases h
      · rename_i hx
        cases h
        refine ⟨[], xs, rfl, rfl, by simpa using hx, ?_⟩
        clear ih hx
        induction xs with
        | nil => simp
        | cons y ys ihy =>
          unfold lastIdle at hn
          split at hn
          · cases hn
          · rename_i hn'
            split at hn
            · rename_i hy
              rintro z (_ | ⟨_, hz⟩)
              · exact hy
              · exact ihy hn' z hz
            · cases hn

/-- The last frame picked gives way to another; the frames before and behind it stand. -/
theorem replaceLast_split {p : TxFrame → Bool} {q : List TxFrame} (h : q.any p = true) (f : TxFrame) :
    ∃ a g b, q = a ++ g :: b ∧ replaceLast p f q = a ++ f :: b ∧ p g = true ∧ b.any p = false := by
  induction q with
  | nil => simp at h
  | cons x xs ih =>
    unfold replaceLast
    split
    · rename_i hx
      obtain ⟨a, g, b, rfl, e, hg, hb⟩ := ih hx
      exact ⟨x :: a, g, b, rfl, by rw [e]; rfl, hg, hb⟩
    · rename_i hx
      have hp : p x = true := by simpa [hx] using h
      exact ⟨[], x, xs, rfl, by rw [if_pos hp]; rfl, hp, by simpa using hx⟩

/-- What handing a frame over can do to the queue, and that nothing else of the link changes but the count of dropped
frames (R171, R172). -/
theorem handOver_cases (l : Link) (f : TxFrame) : ∃ q d, (l.handOver f).1 = { l with queue := q, dropped := d }
    ∧ (q = l.queue
      ∨ (∃ a g b, l.queue = a ++ g :: b ∧ q = a ++ f :: b ∧ isIdlePresence g = true ∧ b.any isIdlePresence = false)
        ∧ f.kind = .presence
      ∨ q = joinQueue f l.queue ∧ l.queue.length < 16
      ∨ ∃ g rest, lastIdle l.queue = some (g, rest) ∧ q = joinQueue f rest ∧ f.kind.priority < g.kind.priority)
    ∧ (l.silent = true → q = l.queue) := by
  unfold Link.handOver
  split
  · exact ⟨l.queue, _, rfl, .inl rfl, fun _ => rfl⟩
  · rename_i hs
    split
    · rename_i hp
      simp only [Bool.and_eq_true, beq_iff_eq] at hp
      obtain ⟨a, g, b, hq, e, hg, hb⟩ := replaceLast_split hp.2 f
      exact ⟨_, l.dropped, rfl, .inr (.inl ⟨⟨a, g, b, hq, e, hg, hb⟩, hp.1⟩), fun h => absurd h hs⟩
    · split
      · rename_i hl
        exact ⟨_, l.dropped, rfl, .inr (.inr (.inl ⟨rfl, hl⟩)), fun h => absurd h hs⟩
      · split
        · rename_i g rest hg
          split
          · rename_i hlt
            exact ⟨_, _, rfl, .inr (.inr (.inr ⟨g, rest, hg, rfl, hlt⟩)), fun h => absurd h hs⟩
          · exact ⟨l.queue, _, rfl, .inl rfl, fun _ => rfl⟩
        · exact ⟨l.queue, _, rfl, .inl rfl, fun _ => rfl⟩

/-- A queue of at most 16 frames stays so (R171). -/
theorem handOver_length {l : Link} (h : l.queue.length ≤ 16) (f : TxFrame) : (l.handOver f).1.queue.length ≤ 16 := by
  obtain ⟨q, d, e, hq, -⟩ := handOver_cases l f
  rw [e]
  rcases hq with rfl | ⟨⟨a, g, b, hq, rfl, -, -⟩, -⟩ | ⟨rfl, hl⟩ | ⟨g, rest, hg, rfl, -⟩
  · exact h
  · simpa [hq] using h
  · simp only [joinQueue_length]; omega
  · obtain ⟨a, b, hab, rfl, -, -⟩ := lastIdle_some hg
    rw [hab] at h
    simp only [joinQueue_length, List.length_append, List.length_cons] at h ⊢
    omega

/-! ### Notices queued across a renumbering (R26) -/

/-- A renumbering of the windows changes opening windows alone: frames, order and transmission stand (R26). -/
@[simp] theorem forgetOpenings_isSending (l : Link) : isSending l.forgetOpenings = isSending l := by
  simp [isSending, Link.forgetOpenings, List.any_map, Function.comp_def]
@[simp] theorem forgetOpenings_txBits (l : Link) : l.forgetOpenings.txBits = l.txBits := rfl
@[simp] theorem forgetOpenings_silent (l : Link) : l.forgetOpenings.silent = l.silent := rfl
@[simp] theorem forgetOpenings_kinds (l : Link) :
    l.forgetOpenings.queue.map TxFrame.kind = l.queue.map TxFrame.kind := by
  simp [Link.forgetOpenings, Function.comp_def]
@[simp] theorem forgetOpenings_length (l : Link) : l.forgetOpenings.queue.length = l.queue.length := by
  simp [Link.forgetOpenings]

/-- A notice queued across a renumbering carries age 0 (R26). -/
theorem forgetOpenings_age (l : Link) (s : State) : ∀ f ∈ l.forgetOpenings.queue, noticeAge s f = 0 := by
  intro f h
  obtain ⟨g, -, rfl⟩ := List.mem_map.1 h
  rfl

/-! ### The peer table as read (R173) -/

@[simp] theorem peerEntry_own (s : State) : peerEntry s (ownStation s) = ownEntry s := if_pos rfl

@[simp] theorem peerEntry_other {s : State} {st : Station} (h : st ≠ ownStation s) : peerEntry s st = peer s st := if_neg h

end Sys2Proof.Machine
end

