-- ==== Sys2Proof/Laws/Loopback.lean ====
section
/-! SUPPORT. Loopback within a step (R170): nothing happens beyond the block's own action when nothing was handed over to
the station itself. -/

namespace Sys2Proof.Machine

@[simp] theorem drainLoopback_nothing {s : State} (h : s.link.loopback = []) (n : Nat) : drainLoopback n s = s := by
  cases n with
  | zero => rfl
  | succ n => simp [drainLoopback, h]

/-- One frame waiting for loopback is delivered, and what it gives rise to after it. -/
theorem drainLoopback_next {s : State} {g : TxFrame} {gs : List TxFrame} (h : s.link.loopback = g :: gs) (n : Nat) :
    drainLoopback (n + 1) s = drainLoopback n (deliverLoop g { s with link := { s.link with loopback := gs } }) := by
  simp [drainLoopback, h]

/-- An action that hands nothing to the station itself is all that happens. -/
theorem withLoopback_nothing {f : State → State} {s : State} (h : (f (noLoopback s)).link.loopback = []) :
    withLoopback f s = f (noLoopback s) := drainLoopback_nothing h _

/-- Handing a frame to the line leaves nothing for loopback. -/
@[simp] theorem handOver_loopback (l : Link) (f : TxFrame) : (l.handOver f).1.loopback = l.loopback := by
  unfold Link.handOver
  split
  · rfl
  · split
    · rfl
    · split
      · rfl
      · split
        · split <;> rfl
        · rfl

@[simp] theorem sentTo_loopback (st : Station) (k : FrameKind) (bs : List Byte) (s : State) :
    (sentTo st k bs s).link.loopback = s.link.loopback := handOver_loopback ..

end Sys2Proof.Machine
end

