-- ==== Sys2Proof/Laws/Memory.lean ====
section
/-! SUPPORT. The store's memory: the canonical form says what it should, every memory operation keeps it, and the memory
after reset has it. -/

namespace Sys2Proof.Machine

/-- The canonical form: addresses strictly rising, no byte 0 listed. -/
theorem Memory.wf_iff (m : Memory) :
    Memory.wf m = true ↔ m.Pairwise (fun c d => c.1 < d.1) ∧ ∀ c ∈ m, c.2 ≠ 0 := by
  induction m with
  | nil => simp [Memory.wf]
  | cons c rest ih =>
    cases rest with
    | nil => simp [Memory.wf]
    | cons d rest =>
      simp only [Memory.wf, Bool.and_eq_true, decide_eq_true_eq, ih, List.pairwise_cons, List.mem_cons]
      constructor
      · rintro ⟨⟨hc, hcd⟩, ⟨hd, hp⟩, hz⟩
        refine ⟨⟨?_, hd, hp⟩, ?_⟩
        · rintro a (rfl | ha)
          · exact hcd
          · exact Nat.lt_trans hcd (hd a ha)
        · rintro a (rfl | ha)
          · exact hc
          · exact hz a ha
      · rintro ⟨⟨hc, hd, hp⟩, hz⟩
        exact ⟨⟨hz c (.inl rfl), hc d (.inl rfl)⟩, ⟨hd, hp⟩, fun a ha => hz a (.inr ha)⟩

/-- The cells of bytes laid out from `a` on lie within those bytes, rise, and hold no byte 0. -/
theorem Memory.cells_spec (bs : List Byte) (a : Nat) :
    (Memory.cells a bs).Pairwise (fun c d => c.1 < d.1)
    ∧ ∀ c ∈ Memory.cells a bs, c.2 ≠ 0 ∧ a ≤ c.1 ∧ c.1 < a + bs.length := by
  induction bs generalizing a with
  | nil => simp [Memory.cells]
  | cons b bs ih =>
    obtain ⟨hp, hm⟩ := ih (a + 1)
    have later : ∀ c ∈ Memory.cells (a + 1) bs, c.2 ≠ 0 ∧ a + 1 ≤ c.1 ∧ c.1 < a + (bs.length + 1) := fun c hc =>
      ⟨(hm c hc).1, (hm c hc).2.1, by have := (hm c hc).2.2; omega⟩
    unfold Memory.cells
    split
    · exact ⟨hp, fun c hc => ⟨(later c hc).1, by have := (later c hc).2.1; omega, (later c hc).2.2⟩⟩
    · rename_i hb
      refine ⟨List.pairwise_cons.2 ⟨fun c hc => (later c hc).2.1, hp⟩, ?_⟩
      rintro c (_ | ⟨_, hc⟩)
      · exact ⟨hb, Nat.le_refl a, by simp⟩
      · exact ⟨(later c hc).1, by have := (later c hc).2.1; omega, (later c hc).2.2⟩

/-- A write keeps the canonical form. -/
theorem Memory.write_wf {m : Memory} (h : Memory.wf m = true) (a : Nat) (bs : List Byte) :
    Memory.wf (Memory.write m a bs) = true := by
  rw [Memory.wf_iff] at h ⊢
  obtain ⟨hp, hz⟩ := h
  obtain ⟨cp, cm⟩ := Memory.cells_spec bs a
  unfold Memory.write
  refine ⟨List.pairwise_append.2 ⟨List.pairwise_append.2 ⟨hp.filter _, cp, ?_⟩, hp.filter _, ?_⟩, ?_⟩
  · intro c hc d hd
    have := (cm d hd).2.1
    simp only [List.mem_filter, decide_eq_true_eq] at hc
    omega
  · intro c hc d hd
    simp only [List.mem_append, List.mem_filter, decide_eq_true_eq] at hc hd
    rcases hc with hc | hc
    · omega
    · have := (cm c hc).2.2; omega
  · intro c hc
    simp only [List.mem_append, List.mem_filter] at hc
    rcases hc with (hc | hc) | hc
    · exact hz c hc.1
    · exact (cm c hc).1
    · exact hz c hc.1

/-- A record written over its blocks keeps the canonical form. -/
theorem Memory.writeChain_wf (chain : List Nat) {m : Memory} (h : Memory.wf m = true) (bytes : List Byte) :
    Memory.wf (Memory.writeChain m chain bytes) = true := by
  induction chain generalizing m bytes with
  | nil => exact h
  | cons b bs ih => exact ih (Memory.write_wf h _ _) _

/-- The memory after reset is in canonical form. -/
theorem reset_memory_wf : Memory.wf State.reset.store.mem = true := rfl

/-- So many bytes are read as are asked for. -/
@[simp] theorem Memory.read_length (m : Memory) (a n : Nat) : (Memory.read m a n).length = n := by
  simp [Memory.read]

/-- A record reads as its blocks hold, 128 bytes a block. -/
theorem Memory.readChain_length (m : Memory) (chain : List Nat) :
    (Memory.readChain m chain).length = 128 * chain.length := by
  induction chain with
  | nil => rfl
  | cons b bs ih =>
    have : Memory.readChain m (b :: bs) = Memory.read m (blockBytes * b) blockBytes ++ Memory.readChain m bs := rfl
    rw [this, List.length_append, ih, Memory.read_length, List.length_cons]
    simp only [blockBytes]
    omega

end Sys2Proof.Machine
end

