-- ==== Sys2Proof/Laws/Printer.lean ====
section
/-! SUPPORT. What the Print Unit's shared operations can do: the pause of an ACTIVE job, the loss of readiness, a row
made, the frames it takes, the credit granted, the head that goes on. -/

namespace Sys2Proof.Machine

@[simp] theorem rowMade_row (s : State) : (rowMade s).printer.row = none := rfl
@[simp] theorem rowMade_motorSteps (s : State) : (rowMade s).printer.motorSteps = s.printer.motorSteps + 1 := rfl
@[simp] theorem rowMade_ready (s : State) : (rowMade s).printer.ready = s.printer.ready := rfl
@[simp] theorem rowMade_queue (s : State) : (rowMade s).printer.queue = s.printer.queue := rfl
@[simp] theorem rowMade_head (s : State) : (rowMade s).printer.head = s.printer.head := rfl

/-! ### Frames for the Print Unit (R147) -/

/-- A frame that the Print Unit takes is acted on. -/
theorem toPrintUnit_taken {f : RxFrame} {s : State} (hp : s.pins.straps.prn = true) (hs : f.sender.val < 8)
    (act : State → State) : toPrintUnit f act s = act s := by simp [toPrintUnit, printUnitTakes, hp, hs]

/-- A frame that the Print Unit does not take changes nothing, whatever it carries. -/
theorem toPrintUnit_ignored {f : RxFrame} {s : State} (h : s.pins.straps.prn = false ∨ 8 ≤ f.sender.val)
    (act : State → State) : toPrintUnit f act s = s := by
  have no : printUnitTakes s f.sender = false := by
    rcases h with h | h
    · simp [printUnitTakes, h]
    · simp [printUnitTakes, Nat.not_lt.mpr h]
  simp [toPrintUnit, no]

/-! ### Credit and the head (R152, R153) -/

/-- All that driving the head does: it goes on with its feed, its line, or the oldest line of the buffer, and nothing but
the printer changes (R153, R159, R163). -/
theorem driveHead_eq (s : State) :
    driveHead s = { s with printer := headGoesOn s.pins.straps.twoc s.printer } := by
  unfold driveHead headGoesOn
  by_cases h : s.printer.ready = false ∨ s.printer.row ≠ none
  · have h' : (!s.printer.ready || s.printer.row.isSome) = true := by
      rcases h with h | h
      · simp [h]
      · simp [Option.isSome_iff_ne_none.mpr h]
    rw [if_pos h', if_pos h]
  · have h' : ¬(!s.printer.ready || s.printer.row.isSome) = true := by
      rw [not_or, not_not] at h
      simp [h.1, h.2]
    rw [if_neg h', if_neg h]
    simp only [startLineRow, activeJob]
    cases hh : s.printer.head <;> cases s.printer.queue.find? (fun j => j.state == .active) <;>
      cases hb : s.printer.buffer <;> simp [← hh, ← hb]

/-- The test of the free room: with room for 4 lines or more and the last line not taken, a PRINT_GO of the whole room
goes to the running job's origin, the jobs of that origin gain it, and the line timer starts afresh; otherwise nothing
happens (R152). -/
theorem testCredit_eq (s : State) (j : Job) (h : runningJob s = some j) :
    testCredit s = if 4 ≤ 16 - (j.credit + s.printer.buffer.length) ∧ j.lastTaken = false then
        restartLineTimer (modifyJob j.origin
          (fun x => { x with credit := x.credit + (16 - (j.credit + s.printer.buffer.length)) })
          (send .printGo j.origin (u16 j.number ++ u8 (16 - (j.credit + s.printer.buffer.length))) s))
      else s := by
  simp only [testCredit, h]
  exact if_congr (by rw [Bool.and_eq_true, decide_eq_true_eq]; simp [freeRoom]) rfl rfl

/-! ### Pauses and rows (R158, R162) -/

/-- A frame sent changes the link alone. -/
theorem send_link (kind : FrameKind) (st : Station) (payload : List Byte) (s : State) :
    ∃ l, send kind st payload s = { s with link := l } := by
  simp only [send]
  split <;> exact ⟨_, rfl⟩

/-- All that a pause does: with no ACTIVE job nothing; otherwise the jobs of that job's origin are PAUSED, the line
timer starts afresh or stops, and one PRINT_STATE is sent (R158). -/
theorem pauseActive_cases (s : State) :
    (activeJob s = none ∧ pauseActive s = s)
    ∨ ∃ j timer link, activeJob s = some j ∧ pauseActive s = { s with
        link := link
        printer := { s.printer with
          lineTimer := timer
          queue := s.printer.queue.map fun x => if x.origin == j.origin then { x with state := .paused } else x } } := by
  unfold pauseActive
  cases h : activeJob s with
  | none => exact .inl ⟨rfl, rfl⟩
  | some j =>
    obtain ⟨l, hl⟩ := send_link .printState j.origin (u16 j.number ++ u8 (pausedCode true))
      (modifyJob j.origin (fun x => { x with state := .paused }) s)
    refine .inr ⟨j, (restartLineTimer (sendPrintState j true
      (modifyJob j.origin (fun x => { x with state := .paused }) s))).printer.lineTimer, l, rfl, ?_⟩
    simp only [sendPrintState, hl]
    rfl

/-- All that the loss of readiness does: the printer is not ready and no longer settles, and an ACTIVE job pauses at
once only when no row is being made (R158, log 57). -/
theorem loseReady_cases (s : State) :
    let lost := { s with printer := { s.printer with settleTimer := none, ready := false } }
    loseReady s = if s.printer.row.isSome then lost else pauseActive lost := rfl

end Sys2Proof.Machine
end

