-- ==== Sys2Proof/Laws/Receiver.lean ====
section
/-! SUPPORT. Spec lemmas of the receiver's side of the line: removal of inserted bits inverts their insertion, a read in
two parts, the wait for a free line. -/

namespace Sys2Proof.Machine

/-- Inserted bits removed, what is read of a stuffed run of bits is those bits, whatever follows (R165). -/
theorem unstuffBits_stuffBits (bits rest : List Bool) (level : Bool) (run : Nat) (h : run < 5) :
    (unstuffBits bits.length level run (stuffBits level run bits ++ rest)).data = bits := by
  induction bits generalizing level run with
  | nil => cases rest <;> simp [stuffBits, unstuffBits]
  | cons b bs ih =>
    have read : ∀ l : List Bool, (unstuffBits (bs.length + 1) level run (b :: l)).data
        = b :: (unstuffBits bs.length b (if b == level then run + 1 else 1) l).data := fun l => by
      simp [unstuffBits, show run ≠ 5 by omega]
    have short : (if b == level then run + 1 else 1) ≤ 5 := by split <;> omega
    rw [List.length_cons, stuffBits]
    generalize (if b == level then run + 1 else 1) = run' at read short ⊢
    by_cases five : run' = 5
    · rw [if_pos five, List.cons_append, read, five]
      cases bs with
      | nil => simp [unstuffBits]
      | cons c cs =>
        have skip : ∀ l, unstuffBits (cs.length + 1) b 5 ((!b) :: l) = unstuffBits (cs.length + 1) (!b) 1 l := fun l => by
          simp [unstuffBits]
        rw [List.length_cons, List.cons_append, skip]
        exact congrArg (b :: ·) (ih (!b) 1 (by omega))
    · rw [if_neg five, List.cons_append, read]
      exact congrArg (b :: ·) (ih b _ (by omega))

/-- A read of so many bits goes on where a read of the first of them stopped (R165). -/
theorem unstuffBits_add (bits : List Bool) (m n : Nat) (level : Bool) (run : Nat)
    (h : (unstuffBits m level run bits).data.length = m) :
    unstuffBits (m + n) level run bits =
      let r := unstuffBits m level run bits
      let r' := unstuffBits n r.level r.run r.rest
      { r' with data := r.data ++ r'.data } := by
  induction bits generalizing m level run with
  | nil => obtain rfl : 0 = m := h; simp [unstuffBits]
  | cons b bs ih =>
    cases m with
    | zero => simp [unstuffBits]
    | succ m =>
      have e : m + 1 + n ≠ 0 := by omega
      have e' : m + 1 + n - 1 = m + n := by omega
      simp only [unstuffBits, e, e', if_false, Nat.succ_ne_zero, Nat.add_sub_cancel] at h ⊢
      split at h
      · split at h
        · simp at h
        · simp only [*, if_true, if_false]
      · simp only [List.length_cons, Nat.add_right_cancel_iff] at h
        simp only [*, if_false, ih _ _ _ h, List.cons_append]

/-- Bits that end before the line is free are all read. -/
theorem awaitFree_rest {n : Nat} {bits : List Bool} (h : (awaitFree n bits).1 < freeRun) : (awaitFree n bits).2 = [] := by
  induction bits generalizing n with
  | nil => rfl
  | cons b bs ih =>
    simp only [awaitFree] at h ⊢
    split at h
    · omega
    · simp only [*, if_false]

/-- A wait that lasts has fewer than ten recessive bits in a row. -/
theorem waitAfter_lt {n m : Nat} {bits : List Bool} (h : waitAfter n bits = some m) : m < freeRun := by
  unfold waitAfter at h
  split at h
  · cases h; assumption
  · cases h

/-- Ten recessive bits in a row are a free line, and the bits after them are left (R165). -/
theorem awaitFree_free (n : Nat) (h : n ≤ freeRun) (bits : List Bool) :
    awaitFree n (List.replicate (freeRun - n) true ++ bits) = (freeRun, bits) := by
  induction k : freeRun - n generalizing n with
  | zero =>
    obtain rfl : n = freeRun := by omega
    cases bits <;> simp [awaitFree]
  | succ k ih =>
    have hn : ¬freeRun ≤ n := by omega
    simp only [List.replicate_succ, List.cons_append, awaitFree, hn, if_false, if_true]
    exact ih (n + 1) (by omega) (by omega)

end Sys2Proof.Machine
end

