-- ==== Sys2Proof/Laws/Store.lean ====
section
/-! SUPPORT. What the store's shared operations can do: directory lookups, rewrites, the forming of the open-offer list,
release and allocation. -/

namespace Sys2Proof.Machine

/-! ### Forming the open-offer list touches the agreements, the peers and the queue alone (R115, R116, R126) -/

/-- Two states that differ in the agreements, the peers and the link alone. -/
def SameButOffers (t s : State) : Prop :=
  t = { s with agreement := t.agreement, peers := t.peers, link := t.link }

theorem SameButOffers.refl (s : State) : SameButOffers s s := rfl

theorem SameButOffers.trans {u t s : State} (h : SameButOffers u t) (k : SameButOffers t s) : SameButOffers u s := by
  unfold SameButOffers at *
  rw [h, k]

theorem send_sameButOffers (k : FrameKind) (st : Station) (bs : List Byte) (s : State) :
    SameButOffers (send k st bs s) s := by
  unfold send
  dsimp only
  split <;> rfl

theorem offersDue_sameButOffers (s : State) : SameButOffers (offersDue s) s := by
  unfold offersDue
  split
  · split <;> rfl
  · rfl

theorem giveBackOne_sameButOffers (gone : List Nat) (s : State) (st : Station) :
    SameButOffers (giveBackOne gone s st) s := by
  unfold giveBackOne
  split
  · exact .refl s
  · split
    · dsimp only
      split
      · rfl
      · exact (send_sameButOffers ..).trans rfl
    · exact .refl s

theorem giveBack_sameButOffers (gone : List Nat) (s : State) : SameButOffers (giveBack gone s) s := by
  suffices h : ∀ (l : List Station) (s : State), SameButOffers (l.foldl (giveBackOne gone) s) s from h _ s
  intro l
  induction l with
  | nil => exact SameButOffers.refl
  | cons st l ih => exact fun s => (ih _).trans (giveBackOne_sameButOffers gone s st)

theorem replaceList_sameButOffers (s : State) : SameButOffers (replaceList s) s :=
  (giveBack_sameButOffers ..).trans rfl

/-- Forming the open-offer list changes the agreements, the peers and the link alone. -/
theorem formOffers_sameButOffers (s : State) : SameButOffers (formOffers s) s := by
  unfold formOffers
  split
  · exact replaceList_sameButOffers s
  · exact (offersDue_sameButOffers _).trans ((replaceList_sameButOffers _).trans rfl)

@[simp] theorem formOffers_store (s : State) : (formOffers s).store = s.store := by rw [formOffers_sameButOffers s]
@[simp] theorem formOffers_survey (s : State) : (formOffers s).survey = s.survey := by rw [formOffers_sameButOffers s]
@[simp] theorem formOffers_supply (s : State) : (formOffers s).supply = s.supply := by rw [formOffers_sameButOffers s]
@[simp] theorem formOffers_detector (s : State) : (formOffers s).detector = s.detector := by
  rw [formOffers_sameButOffers s]
@[simp] theorem formOffers_pending (s : State) : (formOffers s).pending = s.pending := by
  rw [formOffers_sameButOffers s]

/-! ### The directory -/

/-- A changed entry keeps its place and its id, whatever else of it changes. -/
theorem modifyEntry_ids {f : Entry → Entry} (hf : ∀ e, (f e).id = e.id) (id : Nat) (s : State) :
    (modifyEntry id f s).store.dir.map Entry.id = s.store.dir.map Entry.id := by
  rw [modifyEntry_store, List.map_map]
  refine List.map_congr_left fun e _ => ?_
  simp only [Function.comp_apply]
  split
  · exact hf e
  · rfl

/-- A record found has the id asked for and stands in the directory. -/
theorem findEntry_some {s : State} {id : Nat} {e : Entry} (h : findEntry s id = some e) :
    e ∈ s.store.dir ∧ e.id = id :=
  ⟨List.mem_of_find?_eq_some h, by simpa using List.find?_some h⟩

/-! ### Rewrites and records in memory -/

/-- A rewrite changes memory alone, and keeps its form. -/
theorem rewriteField_spec (id i : Nat) (bytes : List Byte) (s : State) :
    ∃ m, rewriteField id i bytes s = { s with store := { s.store with mem := m } }
      ∧ (Memory.wf s.store.mem = true → Memory.wf m = true) := by
  unfold rewriteField
  split
  · exact ⟨s.store.mem, rfl, fun h => h⟩
  · exact ⟨_, rfl, fun h => Memory.write_wf h _ _⟩

/-- A record's blocks written change memory alone, and keep its form. -/
theorem writeRecord_spec (id : Nat) (bytes : List Byte) (s : State) :
    ∃ m, writeRecord id bytes s = { s with store := { s.store with mem := m } }
      ∧ (Memory.wf s.store.mem = true → Memory.wf m = true) := by
  unfold writeRecord
  split
  · exact ⟨s.store.mem, rfl, fun h => h⟩
  · exact ⟨_, rfl, fun h => Memory.writeChain_wf _ h _⟩

/-- An event's capture fields changed: memory and the detector's working copy alone, the form kept (R57, R89). -/
theorem setCapture_spec (p : Nat) (start : Bool) (st : CaptureStatus) (w : Option Nat) (s : State) :
    ∃ m, setCapture p start st w s = { s with
        detector := { s.detector with event := s.detector.event.setCapture p start st w }
        store := { s.store with mem := m } }
      ∧ (Memory.wf s.store.mem = true → Memory.wf m = true) := by
  unfold setCapture
  dsimp only
  split
  · exact ⟨s.store.mem, rfl, fun h => h⟩
  · obtain ⟨m₁, e₁, h₁⟩ := rewriteField_spec p 6 (u8 (withBit (byteAt (recordBytes { s with
      detector := { s.detector with event := s.detector.event.setCapture p start st w } } ‹_›) 6)
      (if start then 1 else 2) w.isSome)) { s with
      detector := { s.detector with event := s.detector.event.setCapture p start st w } }
    rw [e₁]
    obtain ⟨m₂, e₂, h₂⟩ := rewriteField_spec p (if start then 28 else 29) (u8 st.code) { s with
      detector := { s.detector with event := s.detector.event.setCapture p start st w }
      store := { s.store with mem := m₁ } }
    rw [e₂]
    obtain ⟨m₃, e₃, h₃⟩ := rewriteField_spec p (if start then 30 else 32) (u16 (orZero w)) { s with
      detector := { s.detector with event := s.detector.event.setCapture p start st w }
      store := { s.store with mem := m₂ } }
    rw [e₃]
    exact ⟨m₃, rfl, fun h => h₃ (h₂ (h₁ h))⟩

/-! ### Release and shedding (R81, R89, R90) -/

/-- Blocks freed join the free list at its tail, in order (R81). -/
@[simp] theorem freeBlocks_store (blocks : List Nat) (s : State) : (freeBlocks blocks s).store = { s.store with
    free := s.store.free ++ blocks, freeCount := s.store.freeCount + blocks.length } := by simp [freeBlocks]

/-- A record released leaves the directory, and its blocks join the free list in chain order (R90). -/
theorem releaseRecord_store {s : State} {id : Nat} {e : Entry} (h : findEntry s id = some e) :
    (releaseRecord id s).store = { s.store with
      dir := s.store.dir.filter fun x => x.id != id
      free := s.store.free ++ e.chain
      freeCount := s.store.freeCount + e.chain.length } := by
  simp [releaseRecord, h]

/-- A record released touches the directory, the free list and the agreements alone. -/
theorem releaseRecord_memory (id : Nat) (s : State) : (releaseRecord id s).store.mem = s.store.mem := by
  unfold releaseRecord
  split
  · rfl
  · simp

/-- A record shed keeps the form of memory (R89). -/
theorem shedRecord_memory_wf (e : Entry) {s : State} (h : Memory.wf s.store.mem = true) :
    Memory.wf (shedRecord e s).store.mem = true := by
  have hr : Memory.wf (releaseRecord e.id s).store.mem = true := by rw [releaseRecord_memory]; exact h
  unfold shedRecord parentShed
  dsimp only
  split
  · exact hr
  · split
    · obtain ⟨m, e', hm⟩ := setCapture_spec ‹_› true .shed none { releaseRecord e.id s with
        store := { (releaseRecord e.id s).store with shed := raise16 (releaseRecord e.id s).store.shed 1 } }
      rw [e']; exact hm hr
    · split
      · obtain ⟨m, e', hm⟩ := setCapture_spec ‹_› false .shed none { releaseRecord e.id s with
          store := { (releaseRecord e.id s).store with shed := raise16 (releaseRecord e.id s).store.shed 1 } }
        rw [e']; exact hm hr
      · exact hr

/-- Shedding keeps the form of memory. -/
theorem shedUntil_memory_wf (a : Asker) (n : Nat) (l : List Entry) {s : State} (h : Memory.wf s.store.mem = true) :
    Memory.wf (shedUntil a n l s).store.mem = true := by
  induction l generalizing s with
  | nil => exact h
  | cons e es ih =>
    unfold shedUntil
    split
    · exact h
    · exact ih (shedRecord_memory_wf e h)

/-! ### Allocation (R84, R85, R87, R88) -/

/-- A record made takes the head of the free list and the next id (R81, R84). -/
theorem makeRecord_store (n : Nat) (e : Entry) (s : State) : (makeRecord n e s).1.store = { s.store with
    free := s.store.free.drop n
    freeCount := s.store.freeCount - n
    dir := s.store.dir ++ [{ e with id := s.store.idCounter, chain := s.store.free.take n }]
    idCounter := s.store.idCounter + 1 } := by simp [makeRecord]

/-- An allocation ends in one of these, on the state as it is or as shedding left it (R84, R85, R87, R88, R97). -/
theorem allocate_cases (a : Asker) (n : Nat) (e : Entry) (s : State) :
    (allocate a n e s = (s, .safe) ∧ s.supply.state = .safe)
    ∨ s.supply.state ≠ .safe ∧ ∃ t, (t = s ∨ t = shedUntil a n (shedOrder s a) s)
      ∧ (allocate a n e s = refuseFull t
        ∨ allocate a n e s = (t, .nothing) ∧ (∃ p, a = .own p)
        ∨ allocate a n e s = makeRecord n e t ∧ fits a n t = true ∧ s.store.idCounter < 65536
        ∨ allocate a n e s = makeRecord (partialBlocks t.store.freeCount) e t ∧ (∃ p, a = .own p)
          ∧ fits a n t = false ∧ partialBlocks t.store.freeCount ≠ 0 ∧ s.store.idCounter < 65536) := by
  unfold allocate
  split
  · exact .inl ⟨rfl, ‹_›⟩
  · refine .inr ⟨‹_›, ?_⟩
    split
    · exact ⟨s, .inl rfl, .inl rfl⟩
    · have hid : s.store.idCounter < 65536 := by omega
      split
      · exact ⟨s, .inl rfl, .inr (.inr (.inl ⟨rfl, ‹_›, hid⟩))⟩
      · split
        · rename_i p _
          refine ⟨_, .inr rfl, ?_⟩
          dsimp only
          split
          · exact .inr (.inr (.inl ⟨rfl, ‹_›, hid⟩))
          · split
            · exact .inr (.inl ⟨rfl, p, rfl⟩)
            · exact .inr (.inr (.inr ⟨rfl, ⟨p, rfl⟩, by simpa using ‹¬fits _ _ _ = true›, ‹_›, hid⟩))
        · split
          · exact ⟨s, .inl rfl, .inl rfl⟩
          · refine ⟨_, .inr rfl, ?_⟩
            dsimp only
            split
            · exact .inr (.inr (.inl ⟨rfl, ‹_›, hid⟩))
            · exact .inl rfl

/-- An allocation keeps the form of memory. -/
theorem allocate_memory_wf (a : Asker) (n : Nat) (e : Entry) {s : State} (h : Memory.wf s.store.mem = true) :
    Memory.wf (allocate a n e s).1.store.mem = true := by
  rcases allocate_cases a n e s with ⟨e', -⟩ | ⟨-, t, ht, hc⟩
  · rw [e']; exact h
  · have hw : Memory.wf t.store.mem = true := by
      rcases ht with rfl | rfl
      · exact h
      · exact shedUntil_memory_wf a n _ h
    rcases hc with e' | ⟨e', -⟩ | ⟨e', -⟩ | ⟨e', -⟩ <;> rw [e']
    · exact hw
    · exact hw
    · rw [makeRecord_store]; exact hw
    · rw [makeRecord_store]; exact hw

/-! ### A record cut short (R57, R90) -/

/-- Cutting a chain keeps every block: each is among those kept or those released, and none is made (R80, R90). -/
theorem mem_splitChain (chain : List Nat) (k region filled b : Nat) :
    b ∈ (splitChain chain k region filled).1 ∨ b ∈ (splitChain chain k region filled).2 ↔ b ∈ chain := by
  unfold splitChain
  simp only [List.mem_append, List.mem_flatMap, List.mem_map, List.mem_range, exists_exists_and_eq_and]
  constructor
  · rintro (⟨i, -, h⟩ | ⟨i, -, h⟩ | h)
    · exact List.mem_of_mem_drop (List.mem_of_mem_take (List.mem_of_mem_take h))
    · exact List.mem_of_mem_drop (List.mem_of_mem_take (List.mem_of_mem_drop h))
    · exact List.mem_of_mem_drop h
  · intro h
    obtain ⟨j, hj⟩ := List.mem_iff_getElem?.1 h
    by_cases hk : j < k * region
    · have hr : 0 < region := Nat.pos_of_ne_zero fun e => by simp [e] at hk
      have hi : j / region < k := Nat.div_lt_of_lt_mul (by rwa [Nat.mul_comm])
      have hb : b ∈ (chain.drop (j / region * region)).take region := by
        refine List.mem_iff_getElem?.2 ⟨j % region, ?_⟩
        rw [List.getElem?_take_of_lt (Nat.mod_lt _ hr), List.getElem?_drop, Nat.mul_comm, Nat.div_add_mod, hj]
      rw [← List.take_append_drop filled ((chain.drop _).take _), List.mem_append] at hb
      exact hb.elim (fun h => .inl ⟨_, hi, h⟩) fun h => .inr (.inl ⟨_, hi, h⟩)
    · refine .inr (.inr (List.mem_iff_getElem?.2 ⟨j - k * region, ?_⟩))
      rw [List.getElem?_drop, Nat.add_sub_cancel' (not_lt.1 hk), hj]

end Sys2Proof.Machine
end

