-- ==== Sys2Proof/Laws/Supply.lean ====
section
/-! SUPPORT. What the SAFE procedure is made of, with the frames taken between its steps, and what a stop does at each
place it can fall. -/

namespace Sys2Proof.Machine

/-! ### Outcomes that follow one another -/

@[simp] theorem andThen_next (s : State) (act : State → Host.Outcome State Fault Refusal) :
    andThen (.next s) act = act s := rfl

theorem andThen_assoc (o : Host.Outcome State Fault Refusal) (f g : State → Host.Outcome State Fault Refusal) :
    andThen (andThen o f) g = andThen o fun s => andThen (f s) g := by cases o <;> rfl

/-- Two acts that both answer a next state answer one together. -/
theorem andThen_answers {o : Host.Outcome State Fault Refusal} {act : State → Host.Outcome State Fault Refusal}
    (ho : ∃ s, o = .next s) (h : ∀ s, ∃ t, act s = .next t) : ∃ t, andThen o act = .next t := by
  obtain ⟨s, rfl⟩ := ho
  exact h s

/-! ### Frames between two steps (R182) -/

/-- Every kind of frame answers a next state. -/
theorem takeFrame_answers (kind : FrameKind) (f : RxFrame) (s : State) : ∃ t, takeFrame kind f s = .next t := by
  cases kind <;> exact ⟨_, rfl⟩

theorem takeFrames_answers (l : List SafeFrame) : ∀ s, ∃ t, takeFrames l s = .next t := by
  induction l with
  | nil => exact fun s => ⟨s, rfl⟩
  | cons x xs ih => exact fun s => andThen_answers (takeFrame_answers ..) ih

@[simp] theorem takeFrames_none (s : State) : takeFrames [] s = .next s := rfl

/-- Frames are taken one after the other. -/
theorem takeFrames_append (l m : List SafeFrame) (s : State) :
    takeFrames (l ++ m) s = andThen (takeFrames l s) (takeFrames m) := by
  induction l generalizing s with
  | nil => rfl
  | cons x xs ih =>
    rw [List.cons_append, takeFrames, takeFrames, andThen_assoc]
    exact congrArg _ (funext ih)

@[simp] theorem framesAt_none (made : Nat) : framesAt made [] = [] := rfl

theorem framesAt_here (during : List SafeFrame) (x : SafeFrame) :
    framesAt x.made (during ++ [x]) = framesAt x.made during ++ [x] := by simp [framesAt]

theorem framesAt_elsewhere {made : Nat} (during : List SafeFrame) {x : SafeFrame} (h : x.made.val ≠ made) :
    framesAt made (during ++ [x]) = framesAt made during := by simp [framesAt, h]

/-! ### The steps of the SAFE procedure (R182) -/

/-- The procedure goes on from what it has done: its next step, with no frame after it. -/
theorem makeSafeSteps_next {made : Nat} {during : List SafeFrame} (h : framesAt (made + 1) during = []) (s : State) :
    makeSafeSteps (made + 1) during s
      = andThen (makeSafeSteps made during s) fun u => .next ((safeSteps.getD made id) u) := by
  simp only [makeSafeSteps, h, takeFrames]

/-- The steps made answer a next state. -/
theorem makeSafeSteps_answers (made : Nat) (during : List SafeFrame) (s : State) :
    ∃ t, makeSafeSteps made during s = .next t := by
  induction made with
  | zero => exact takeFrames_answers _ s
  | succ made ih => exact andThen_answers ih fun _ => takeFrames_answers _ _

/-- A frame that arrives after the steps made so far leaves them as they were. -/
theorem makeSafeSteps_later {made : Nat} (during : List SafeFrame) {x : SafeFrame} (h : made < x.made.val) (s : State) :
    makeSafeSteps made (during ++ [x]) s = makeSafeSteps made during s := by
  induction made with
  | zero => simp only [makeSafeSteps, framesAt_elsewhere during (x := x) (made := 0) (by omega)]
  | succ made ih =>
    simp only [makeSafeSteps, framesAt_elsewhere during (x := x) (made := made + 1) (by omega), ih (by omega)]

/-- A frame is taken where it arrives, after the frames that arrived there before it, as the meaning of its kind says. -/
theorem makeSafeSteps_frame (during : List SafeFrame) (x : SafeFrame) (s : State) :
    makeSafeSteps x.made (during ++ [x]) s
      = andThen (makeSafeSteps x.made during s) (takeFrame x.kind x.frame) := by
  have one : takeFrames [x] = takeFrame x.kind x.frame := by
    funext u
    obtain ⟨t, h⟩ := takeFrame_answers x.kind x.frame u
    simp [takeFrames, h]
  have here := framesAt_here during x
  rcases hm : x.made.val with _ | made
  · rw [hm] at here
    simp only [makeSafeSteps, here, takeFrames_append, one]
  · rw [hm] at here
    simp only [makeSafeSteps, here, takeFrames_append, one, makeSafeSteps_later during (x := x) (made := made) (by omega),
      andThen_assoc]

@[simp] theorem makeSafeSteps_zero (s : State) : makeSafeSteps 0 [] s = .next s := rfl

@[simp] theorem makeSafeSteps_one (s : State) : makeSafeSteps 1 [] s = .next (stopDetector true s) := rfl

@[simp] theorem makeSafeSteps_two (s : State) :
    makeSafeSteps 2 [] s = .next (closeAllShort .cutShort (stopDetector true s)) := rfl

/-! ### The expiry (R181) -/

@[simp] theorem onHoldUpExpiry_due {s : State} {d : Nat} (h : s.powered = true) (hd : s.supply.holdUpTimer = some d)
    (act : State → Host.Outcome State Fault Refusal) :
    onHoldUpExpiry act s = act { s with now := max s.now d } := by simp [onHoldUpExpiry, h, hd]

@[simp] theorem onHoldUpExpiry_stopped {s : State} (h : s.powered = false)
    (act : State → Host.Outcome State Fault Refusal) : onHoldUpExpiry act s = .next s := by simp [onHoldUpExpiry, h]

@[simp] theorem onHoldUpExpiry_idle {s : State} (h : s.supply.holdUpTimer = none)
    (act : State → Host.Outcome State Fault Refusal) : onHoldUpExpiry act s = .next s := by simp [onHoldUpExpiry, h]

/-- An expiry whose act answers a next state answers one. -/
theorem onHoldUpExpiry_answers {act : State → Host.Outcome State Fault Refusal} (h : ∀ s, ∃ t, act s = .next t)
    (s : State) : ∃ t, onHoldUpExpiry act s = .next t := by
  unfold onHoldUpExpiry
  split
  · exact h _
  · exact ⟨s, rfl⟩

/-! ### A stop (R184) -/

theorem stopAt_between (s : State) : stopAt .between s = .next { s with powered := false } := rfl

/-- A stop always answers a next state, in which the part is stopped. -/
theorem stopAt_next (point : StopPoint) (s : State) : ∃ t, stopAt point s = .next { t with powered := false }
    ∧ reachStop point s = .next t := by
  have whole : ∀ f : State → State, ∃ t, whileRunning f s = .next t := fun f => ⟨_, rfl⟩
  have next : ∃ t, reachStop point s = .next t := by
    cases point with
    | between => exact ⟨s, rfl⟩
    | inSafeProcedure made during => exact onHoldUpExpiry_answers (makeSafeSteps_answers made during) s
    | inNoteAdd f => simp only [reachStop, receive]; exact whole _
    | inNoteStrike f => simp only [reachStop, receive]; exact whole _
    | inDiscard f => simp only [reachStop, receive]; exact whole _
    | inSurveyEnd f => simp only [reachStop, receive]; exact whole _
  obtain ⟨t, h⟩ := next
  exact ⟨t, by rw [stopAt, h, andThen_next], h⟩

/-- A stopped part is left as it is by a stop, wherever it falls. -/
theorem stopAt_stopped {s : State} (h : s.powered = false) (point : StopPoint) : stopAt point s = .next s := by
  have same : ({ s with powered := false } : State) = s := by rw [← h]
  cases point <;> simp [stopAt, reachStop, receive, h, same]

/-- A stop within the SAFE procedure leaves what its first steps, and the frames taken so far, made of the part
(R182). -/
theorem stopAt_inSafeProcedure {s : State} {d : Nat} (h : s.powered = true) (hd : s.supply.holdUpTimer = some d)
    (made : Fin 6) (during : List SafeFrame) : stopAt (.inSafeProcedure made during) s
      = andThen (makeSafeSteps made during { s with now := max s.now d }) fun t =>
          .next { t with powered := false } := by
  simp [stopAt, reachStop, h, hd]

end Sys2Proof.Machine
end

