-- ==== Sys2Proof/WellFormed.lean ====
section
/-! DEFINITION. Which commands the line can deliver: a frame carries at most 120 payload bytes (R165). Every other
operand is in range by its type. -/

namespace Sys2Proof

/-- A frame that passed steps 1 to 3 of R169 carries 0..120 payload bytes (R165). -/
def RxFrame.wf (f : RxFrame) : Bool := f.payload.length ≤ 120

/-- The frames that arrive during the SAFE procedure are frames the line can deliver (R182). -/
def safeFramesWf (during : List SafeFrame) : Bool := during.all fun x => x.frame.wf

/-- A stop within the carrying out of a frame, or after frames, is one with frames the line can deliver. -/
def StopPoint.wf : StopPoint → Bool
  | .between => true
  | .inSafeProcedure _ during => safeFramesWf during
  | .inNoteAdd f => f.wf
  | .inNoteStrike f => f.wf
  | .inDiscard f => f.wf
  | .inSurveyEnd f => f.wf

/-- The commands the line can deliver. -/
def Instr.wf : Instr → Bool
  | .strobeDue => true
  | .sampleSetArrival _ _ _ _ => true
  | .offersSendLimitExpiry => true
  | .offersRefreshTimer => true
  | .retryTimerExpiry _ => true
  | .answerTimerExpiry _ => true
  | .triggerNotice f => f.wf
  | .offers f => f.wf
  | .agreeRequest f => f.wf
  | .agreeAccept f => f.wf
  | .agreeReject f => f.wf
  | .agreeEnd f => f.wf
  | .presence f => f.wf
  | .presenceTimer => true
  | .peerAbsent _ => true
  | .transmitAttempt => true
  | .arbitrationLoss => true
  | .bitErrorAbort => true
  | .frameSent => true
  | .surveySet f => f.wf
  | .surveyStart f => f.wf
  | .surveyEnd f => f.wf
  | .statusQuery f => f.wf
  | .fetchSetup f => f.wf
  | .fetch f => f.wf
  | .discard f => f.wf
  | .contextOpen f => f.wf
  | .contextClose f => f.wf
  | .noteAdd f => f.wf
  | .noteStrike f => f.wf
  | .reportRequest f => f.wf
  | .reportCancel f => f.wf
  | .jobQueued f => f.wf
  | .openingTimerExpiry => true
  | .printGo f => f.wf
  | .printState f => f.wf
  | .finishingTimerExpiry => true
  | .printEnd f => f.wf
  | .jobOpen f => f.wf
  | .printLine f => f.wf
  | .jobCancel f => f.wf
  | .lineTimerExpiry => true
  | .headRowDone => true
  | .feedRowDone => true
  | .paperOut => true
  | .paperPresent => true
  | .settleTimerExpiry => true
  | .supplyWarnAssert => true
  | .holdUpTimer during => safeFramesWf during
  | .supplyWarnRelease => true
  | .supplyCut p => p.wf
  | .restart _ _ _ => true
  | .answer f => f.wf
  | .status f => f.wf
  | .fetchData f => f.wf
  | .frameDiscarded _ => true
  | .resetPinAssert p => p.wf

end Sys2Proof
end

