-- ==== Sys2Proof/Tests/Slice0.lean ====
section
/-! SUPPORT. Tests of the model's own work: the well-formedness smoke, worked examples of the manual, and for every
statement with hypotheses a state and operands that meet them. -/

namespace Sys2Proof.Tests
open Sys2Proof Sys2Proof.Machine

-- One test at a time: side by side, the kernel's evaluations each hold a thread while they wait for one another.
set_option Elab.async false

/-! ### Small states -/

/-- A frame from a station to station 1. -/
def to1 (sender : Station) (payload : List Byte) : RxFrame :=
  { sender := sender, broadcast := false, dest := 1, payload := payload }

/-- Station 1 with a printer and paper, in STANDBY, with twenty free blocks. -/
def standby : State := { State.reset with
  pins := { straps := { id := 1, prn := true, twoc := false }, supplyWarn := false, paper := true }
  store := { Store.cleared with free := List.range' 100 20, freeCount := 20 } }

/-- The same while survey 1 with id 7 runs and its clock counts. -/
def running : State := { standby with
  survey := { standby.survey with running := true, number := 1, id := 7 }
  clock := .counting 0 0 }

/-- A directory entry of survey 1. -/
def entry (id : Nat) (kind : RecordKind) (chain : List Nat) : Entry :=
  { newEntry kind 1 false 0 with id := id, chain := chain }

/-- The same survey with a header, an event, a note and a context recorded. -/
def recorded : State := { running with store := { running.store with
  idCounter := 6
  mem := [(128, 0), (128 + 8, 0), (256 + 1, 5), (384 + 1, 2), (384 + 10, 5), (512, 1)].filter fun c => c.2 != 0
  dir := [entry 1 .header [1], { entry 2 .event [2] with pins := some 1 }, entry 3 .note [3], entry 4 .context [4],
    { entry 5 .interval [5, 6, 7] with time := 10 }] } }

/-! ### Well-formedness -/

/-- A frame with 121 payload bytes, which no line can deliver (R165). -/
def tooLong : RxFrame := to1 2 (List.replicate 121 0)

theorem test_wf_refuses_long_frames :
    ([Instr.triggerNotice tooLong, .offers tooLong, .agreeRequest tooLong, .agreeAccept tooLong, .agreeReject tooLong,
      .agreeEnd tooLong, .presence tooLong, .surveySet tooLong, .surveyStart tooLong, .surveyEnd tooLong,
      .statusQuery tooLong, .fetchSetup tooLong, .fetch tooLong, .discard tooLong, .contextOpen tooLong,
      .contextClose tooLong, .noteAdd tooLong, .noteStrike tooLong, .reportRequest tooLong, .reportCancel tooLong,
      .jobQueued tooLong, .printGo tooLong, .printState tooLong, .printEnd tooLong, .jobOpen tooLong,
      .printLine tooLong, .jobCancel tooLong, .answer tooLong, .status tooLong, .fetchData tooLong,
      .holdUpTimer [⟨2, .discard, tooLong⟩], .supplyCut (.inSafeProcedure 3 [⟨0, .offers, tooLong⟩]),
      .supplyCut (.inNoteAdd tooLong), .supplyCut (.inNoteStrike tooLong), .resetPinAssert (.inDiscard tooLong),
      .resetPinAssert (.inSurveyEnd tooLong)].all fun i => !i.wf) = true := by decide +kernel

theorem test_wf_takes_the_longest_frame : (Instr.offers (to1 2 (List.replicate 120 0))).wf = true := by decide +kernel

/-! ### Worked examples of the manual -/

/-- 1.2: strobes of a cycle at tick 1 000 000 of period 20 000 and of the next of period 19 935. -/
theorem test_strobe_ticks :
    ([1, 31, 32, 63].map (strobeAt 1000000 20000)) = [1000312, 1009687, 1010000, 1019687]
    ∧ ([1, 32, 63].map (strobeAt 1020000 19935)) = [1020311, 1029967, 1039623] := by decide +kernel

/-- 1.4: the crossing at 1 009 765 measured against 989 830. -/
theorem test_crossing_measured :
    ((Sampling.restarted 20000 0 0).measure 989830 |>.measure (crossingTick 1009687 1010000 (-600) 1800)).period = 19935
    := by decide +kernel

/-- 1.7: residuals of case A, case B and half a window. -/
theorem test_residuals :
    residualOf 23000 (rmsOf (List.replicate 32 18000 ++ List.replicate 32 (-18000))) = 782
    ∧ residualOf 23000 (isqrt 338000000) = 799 ∧ residualOf 23000 (isqrt 169000000) = 565 := by decide +kernel

/-- 1.7, Limit: every code -32 768. -/
theorem test_residual_limit :
    rmsOf (List.replicate 64 (takenCode 0x8000)) = 32767 ∧ residualOf 1000 32767 = 2000 := by decide +kernel

/-- 7.1: an offer's cost counts whole pairs of cycles at decimation 2, and its opening level is 4 costs and 64 (R114). -/
theorem test_offer_costs :
    (Offer.cost { channels := everyChannel, pre := 4, post := 12, decimation := 1, rate := 1 }) = 48
    ∧ (Offer.cost { channels := everyChannel, pre := 4, post := 12, decimation := 2, rate := 1 }) = 24
    ∧ (Offer.isOpen { channels := everyChannel, pre := 4, post := 12, decimation := 1, rate := 1 } 255) = false
    ∧ (Offer.isOpen { channels := everyChannel, pre := 4, post := 12, decimation := 1, rate := 1 } 256) = true := by
  decide +kernel

/-- R165: ten equal bits are stuffed after each run of five, the inserted bit counting toward the next run. -/
theorem test_stuffing :
    stuffBits true 0 [false, false, false, false, false, false, false, false, false]
      = [false, false, false, false, false, true, false, false, false, false] := by decide +kernel

/-- 12.1: a PRESENCE of a part just restarted COLD. -/
theorem test_first_presence : presencePayload State.reset = firstPresence.payload := by decide +kernel

/-! ### What the statements suppose can be met

One theorem for each statement with hypotheses, named after it: a state and operands that meet the hypotheses of each
clause together, at the edges of their ranges where they have any. -/

theorem storeLaw_recorded : StoreLaw recorded := by unfold StoreLaw; decide +kernel
theorem storeLaw_running : StoreLaw running := by unfold StoreLaw; decide +kernel

/-- The parent law from its parts: the event in progress is none, or one of the directory. -/
theorem parentLaw (s : State)
    (dir : ∀ e ∈ s.store.dir, (∀ p, e.parent = some p → ∃ x ∈ s.store.dir, x.id = p ∧ x.kind = .event)
      ∧ (∀ d, e.desc = some d → ∀ p, d.parent = some p → ∃ x ∈ s.store.dir, x.id = p.recId ∧ x.kind = .event)
      ∧ (e.kind = .interval → e.chain.length = 3)
      ∧ (e.kind = .header ∨ e.kind = .event ∨ e.kind = .note ∨ e.kind = .context → e.chain.length = 1))
    (slots : ∀ i x, slot s i = some x → ∀ p, x.parent = some p →
      ∃ e ∈ s.store.dir, e.id = p.recId ∧ e.kind = .event)
    (event : s.detector.event = .none ∨ ∃ w, s.detector.event = .recorded w
      ∧ ∃ e ∈ s.store.dir, e.id = w.recId ∧ e.kind = .event) : ParentLaw s := by
  refine ⟨dir, slots, fun w hw => ?_⟩
  obtain h | ⟨v, h, k⟩ := event <;> rw [hw] at h <;> cases h
  exact k

theorem meets_StepRunsFrontCommand :
    ({ standby with pending := [.strobeDue] } : State).pending = .strobeDue :: [] ∧ standby.pending = [] := by
  decide +kernel

theorem meets_StoppedPartActsOnNothing :
    ({ running with powered := false } : State).powered = false ∧ running.supply.holdUpTimer = none
    ∧ ∀ (made made' : Fin 6) (x : SafeFrame) (during : List SafeFrame),
        StopPoint.inSafeProcedure made ≠ .inSafeProcedure made' (x :: during) :=
  ⟨by decide +kernel, by decide +kernel, fun _ _ _ _ h => by cases h⟩

/-- The recorded survey, cut off while it ran. -/
def cutOff : State := { recorded with store := { recorded.store with writing := true } }

/-- The recorded survey, ended. -/
def endedSurvey : State := { recorded with store := { recorded.store with
  mem := Memory.write recorded.store.mem (128 + 8) [1] } }

/-- Stores found CONSISTENT and WRITING, with a header that reads RUNNING, one that does not, and none. -/
theorem meets_SupplyReturnResumesTheSurvey :
    ([recorded, cutOff, endedSurvey, { endedSurvey with store := { endedSurvey.store with writing := true } },
        standby].map fun s => (s.store.writing, (lastHeader s).map fun h => byteAt (recordBytes s h) 9))
      = [(false, some 0), (true, some 0), (false, some 1), (true, some 1), (false, none)]
    ∧ (StoreLaw cutOff ∧ DescriptorLaw cutOff ∧ StoreLaw endedSurvey ∧ DescriptorLaw endedSurvey ∧ StoreLaw standby)
    ∧ ParentLaw cutOff ∧ ParentLaw endedSurvey ∧ ParentLaw standby :=
  ⟨by decide +kernel, by unfold StoreLaw DescriptorLaw; decide +kernel,
    parentLaw _ (by decide +kernel) (by decide +kernel) (.inl rfl),
    parentLaw _ (by decide +kernel) (by decide +kernel) (.inl rfl),
    parentLaw _ (by decide +kernel) (by decide +kernel) (.inl rfl)⟩

/-- The running station with its last strobe at a position. -/
def atPosition (n : Nat) (outstanding : Bool) : State :=
  { running with sampling := { running.sampling with position := n, outstanding := outstanding } }

/-- A waveform's descriptor: cycles from `first` on, of these channels. -/
def descriptor (first written total decimation : Nat) (channels : ChannelSet) : Descriptor where
  survey := 1
  parent := none
  origin := none
  firstCycle := first
  firstMs := 0
  firstPeriod := 20000
  wanted := total
  preTaken := 0
  postTaken := total
  total := total
  written := written
  channels := channels
  decimation := decimation
  invalidWritten := 0
  overrangeWritten := 0
  clipped := false
  truncated := false
  cutShort := false

/-- The slot that writes it. -/
def slotOf (kind : SlotKind) (recId : Nat) (parent : Option LatestEvent) (d : Descriptor) : Slot where
  kind := kind
  recId := recId
  parent := parent
  first := d.firstCycle
  total := d.total
  written := d.written
  channels := d.channels
  decimation := d.decimation
  reserved := 0
  order := recId

/-- One channel. -/
def onlyV1 : ChannelSet := ⟨true, false, false⟩

/-- The recorded survey in the last strobe of cycle 3, three captures open: one of two cycles that waits for its last,
one of four half-blocks that waits for its second, one that has not begun. -/
def capturing : State := { recorded with
  sampling := { recorded.sampling with
    cycle := 3, position := 63, outstanding := true
    assembled := List.replicate 63 { codes := ⟨1, 2, 3⟩, patched := false, overrange := false } }
  capture := { recorded.capture with slots := #v[
    some (slotOf .ownStart 6 (some { number := 5, recId := 2 }) (descriptor 2 1 2 1 everyChannel)),
    some (slotOf .companion 7 none (descriptor 2 1 4 2 onlyV1)),
    some (slotOf .companion 8 none (descriptor 4 0 1 1 onlyV1)), none] }
  store := { recorded.store with
    idCounter := 9
    dir := recorded.store.dir ++ [
      { entry 6 .waveformStart [8, 9, 10, 11, 12, 13] with
        open_ := true, parent := some 2, desc := some (descriptor 2 1 2 1 everyChannel) },
      { entry 7 .companion [14, 15] with open_ := true, desc := some (descriptor 2 1 4 2 onlyV1) },
      { entry 8 .companion [16] with open_ := true, desc := some (descriptor 4 0 1 1 onlyV1) }] } }

theorem storeLaw_capturing : StoreLaw capturing := by unfold StoreLaw; decide +kernel

theorem slotsApart_capturing : SlotsApart capturing := by unfold SlotsApart; decide +kernel

theorem parents_capturing : DescriptorLaw capturing ∧ ParentLaw capturing :=
  ⟨by unfold DescriptorLaw; decide +kernel, parentLaw _ (by decide +kernel) (by decide +kernel) (.inl rfl)⟩

/-- The same, cut off while it ran, its event open. -/
def interrupted : State := { capturing with store := { capturing.store with
  writing := true
  dir := capturing.store.dir.map fun e => { e with open_ := e.open_ || e.kind == .event } } }

/-- Open captures with no cycle written and with some, of an event and of none, and an open event. -/
theorem meets_StoreRepaired :
    ParentLaw interrupted ∧ interrupted.store.writing = true ∧ StoreLaw interrupted ∧ DescriptorLaw interrupted
    ∧ lastHeader interrupted = some (entry 1 .header [1])
    ∧ byteAt (recordBytes interrupted (entry 1 .header [1])) 9 = 0
    ∧ ([6, 7, 8, 2].map fun n => (findEntry interrupted n).map fun e =>
          (e.open_, e.kind.isWave, e.parent, e.desc.map Descriptor.written))
        = [some (true, true, some 2, some 1), some (true, true, none, some 1), some (true, true, none, some 0),
          some (true, false, none, none)] :=
  ⟨parentLaw _ (by decide +kernel) (by decide +kernel) (.inl rfl), by unfold StoreLaw DescriptorLaw; decide +kernel⟩

/-- R99: the open event of the repaired store is closed, its start capture kept and PARTIAL. -/
theorem test_repair :
    (match exec (.restart .resetPin false interrupted.pins.straps) interrupted with
      | .next t => (findEntry t 2).map fun e =>
          (e.open_, byteAt (recordBytes t e) 28, bitAt (recordBytes t e) 36 0, (findEntry t 6).isSome, (findEntry t 8).isSome)
      | .fault _ | .refused _ => none) = some (false, 2, true, true, false) := by decide +kernel

/-- The set that completes the cycle. -/
def lastSet : SampleSet := { codes := ⟨1, 2, 3⟩, patched := false, overrange := false }

theorem meets_SampleSetIsTaken :
    (atPosition 30 true).powered = true ∧ (atPosition 30 true).sampling.outstanding = true
    ∧ (atPosition 30 true).sampling.reference = none
    ∧ (atPosition 63 true).sampling.outstanding = true ∧ (atPosition 63 true).sampling.position = 63 := by
  decide +kernel

theorem meets_SampleSetIsTaken_capture :
    let u := evaluateWindow .end_ (placeSet lastSet capturing)
    StoreLaw u ∧ capturing.powered = true ∧ capturing.sampling.outstanding = true
    ∧ capturing.sampling.position = 63 ∧ capturing.sampling.assembled.length = 63
    ∧ ((slot u 0).map fun y => (y.first + y.written, y.written + 1)) = some (capturing.sampling.cycle, 2)
    ∧ ((slot u 1).map fun y => (y.first + y.written, y.written % 2)) = some (capturing.sampling.cycle, 1)
    ∧ ((slot u 2).map fun y => y.first + y.written) = some (capturing.sampling.cycle + 1) ∧ slot u 3 = none
    ∧ ([6, 7, 8].map fun n => (findEntry u n).map fun e => e.chain.length)
        = [some (3 * regionBlocks 1 2), some (1 * regionBlocks 2 4), some (1 * regionBlocks 1 1)] := by
  unfold StoreLaw; decide +kernel

theorem meets_ArrivalAndStrobeTogether :
    (atPosition 63 false).powered = true ∧ (atPosition 63 false).sampling.outstanding = false
    ∧ (atPosition 63 true).sampling.outstanding = true
    ∧ (atPosition 63 true).sampling.firstCyclePending = false := by decide +kernel

theorem meets_StrobeFallsWhereScheduled :
    (atPosition 62 false).powered = true ∧ (atPosition 62 false).sampling.position < 63
    ∧ (atPosition 62 false).sampling.outstanding = false ∧ (atPosition 62 true).sampling.outstanding = true
    ∧ (atPosition 62 true).sampling.position ≠ 31 ∧ (atPosition 31 true).sampling.position < 63 := by decide +kernel

/-- The last cycle before free-run. -/
def lastTracked : State :=
  { running with sampling := { running.sampling with position := 63, outstanding := false, freeRunCount := 3 } }

/-- The same before the first cycle start of a survey, the supply in a state. -/
def firstCycleOf (p : SupplyState) (i : Option Interval) : State := { lastTracked with
  sampling := { lastTracked.sampling with firstCyclePending := true }
  supply := { lastTracked.supply with state := p }, harmonic := { lastTracked.harmonic with interval := i } }

/-- R66: the first interval of a survey opens with start ms 0 and PARTIAL, and not in SAFE. -/
theorem test_first_interval :
    ([SupplyState.normal, .holdup, .safe].map fun p => match exec .strobeDue (firstCycleOf p none) with
      | .next t => t.harmonic.interval.map fun i => (i.startMs, i.partial_, i.index, i.endBoundary)
      | .fault _ | .refused _ => none)
    = [some (0, true, 0, 600000), some (0, true, 0, 600000), none] := by decide +kernel

theorem meets_CycleStartsAtItsTick :
    lastTracked.powered = true ∧ lastTracked.sampling.position = 63 ∧ lastTracked.sampling.outstanding = false
    ∧ lastTracked.sampling.accepted = false ∧ lastTracked.sampling.freeRunCount ≠ 4
    ∧ lastTracked.sampling.firstCyclePending = false
    ∧ ([SupplyState.normal, .safe].map fun p => firstCycleOf p none).all (fun s => s.powered
        && s.sampling.position == 63 && !s.sampling.outstanding && s.sampling.firstCyclePending) = true
    ∧ (firstCycleOf .normal none).supply.state ≠ .safe ∧ (firstCycleOf .normal none).harmonic.interval = none
    ∧ (firstCycleOf .safe none).supply.state = .safe
    ∧ (firstCycleOf .normal (some (newInterval Settings.default 0 5 true))).harmonic.interval.isSome = true
    ∧ (atPosition 63 false).sampling.freeRunCount = 4
    ∧ (atPosition 63 true).powered = true ∧ (atPosition 63 true).sampling.position = 63
    ∧ (atPosition 63 true).sampling.outstanding = true := by decide +kernel

/-- R26: a notice of window 3, still queued at a survey's first cycle start, carries age 0 although window 10 was the
latest; in another cycle it carries 7. -/
theorem test_renumbered_notice :
    ([true, false].map fun first =>
      let s : State := { lastTracked with
        sampling := { lastTracked.sampling with firstCyclePending := first, latestWindow := 10 }
        link := { lastTracked.link with
          queue := [{ newFrame .triggerNotice none [] with openingWindow := some 3 }] } }
      match exec .strobeDue s with
      | .next t => t.link.queue.map (noticeAge t)
      | .fault _ | .refused _ => []) = [[0], [7]] := by decide +kernel

/-- A crossing about to be seen at tick 100000, the anchor `d` ticks before it. -/
def crossing (patched : Bool) (anchor : Option Nat) : State :=
  { running with sampling := { running.sampling with
    reference := some .v2, armed := true, strobeTick := 100312
    lastRef := some { code := -1, tick := 100000, patched := patched }, anchor := anchor } }

/-- The same, the clock not armed. -/
def unarmed : State := { crossing false none with sampling := { (crossing false none).sampling with armed := false } }

theorem meets_CrossingIsMeasured :
    (crossing true none).powered = true ∧ (crossing true none).sampling.outstanding = true
    ∧ (crossing true none).sampling.reference = some .v2 ∧ (crossing true none).sampling.armed = true
    ∧ (crossing true none).sampling.position ≠ 63 ∧ 4 ≤ (crossing true none).survey.settings.declared
    ∧ (0 : Int) ≤ codeTaken 0x7FFF ∧ ((-1 : Int) < 0)
    ∧ crossingTick 100000 100312 (-1) (codeTaken 0x7FFF) = 100000
    ∧ (crossing false (some 85507)).sampling.anchor = some (100000 - 14493)
    ∧ (crossing false (some 76471)).sampling.anchor = some (100000 - 23529)
    ∧ (crossing false (some 85508)).sampling.anchor = some (100000 - 14492)
    ∧ (crossing false (some 76470)).sampling.anchor = some (100000 - 23530)
    ∧ (crossing false none).sampling.anchor = none
    ∧ (unarmed.powered = true ∧ unarmed.sampling.outstanding = true ∧ unarmed.sampling.reference = some .v2
      ∧ unarmed.sampling.position < 63 ∧ unarmed.sampling.armed = false)
    ∧ codeTaken 0xE98A = -((unarmed.survey.settings.declared / 4 : Nat) : Int)
    ∧ ¬(codeTaken 0xE98B ≤ -((unarmed.survey.settings.declared / 4 : Nat) : Int))
    ∧ (0 : Int) ≤ ((crossing true none).sampling.heldSet.getD ⟨0, 0, 0⟩).get .v2
    ∧ (crossing true none).sampling.lastRef = some { code := -1, tick := 100000, patched := true } := by decide +kernel

/-- R8: a code of -floor(D / 4) arms the clock, one above it does not. -/
theorem test_arming :
    ([0xE98A, 0xE98B].map fun v => match exec (.sampleSetArrival 0 v 0 false) unarmed with
      | .next t => t.sampling.armed
      | .fault _ | .refused _ => false) = [true, false] := by decide +kernel

theorem meets_RmsAndResidualOfAWindow :
    (List.replicate 64 (-32767 : Int)).length = 64 ∧ (∀ x ∈ List.replicate 64 (-32767 : Int), isCode x)
    ∧ (2000 : Nat) ≤ 2000 := by unfold isCode; decide +kernel

/-- 63 sets held with these codes, `p` of them patched, the next at a position. -/
def windowState (codes : Tri Int) (p n : Nat) : State :=
  { running with sampling := { running.sampling with
    position := n
    history := List.replicate p { codes := codes, patched := true, overrange := false }
      ++ List.replicate (63 - p) { codes := codes, patched := false, overrange := false } } }

/-- The RMS code a channel will have with one more set of code `x`. -/
def rmsWith (x : Int) (ch : Channel) (s : State) : Nat :=
  rmsOf ((x :: s.sampling.history.map fun y => y.codes.get ch).take 64)

/-- An end window about to be taken with V1 alone live, the clock armed on a channel and tracking. -/
def tracking (ch : Channel) : State :=
  let s : State := windowState ⟨2300, 0, 0⟩ 0 63
  { s with sampling := { s.sampling with
    reference := some ch, armed := true, heldSet := some ⟨2300, 0, 0⟩, freeRunCount := 0, outstanding := true } }

theorem meets_WindowsAreEvaluatedTwiceACycle :
    (windowState ⟨2300, 0, 0⟩ 4 63).powered = true ∧ (windowState ⟨2300, 0, 0⟩ 4 63).sampling.outstanding = true
    ∧ (windowState ⟨2300, 0, 0⟩ 4 63).sampling.history.length = 63
    ∧ patchedCount (windowState ⟨2300, 0, 0⟩ 4 63).sampling.history = 4
    ∧ patchedCount (windowState ⟨2300, 0, 0⟩ 5 63).sampling.history = 5
    ∧ (windowState ⟨2300, 0, 0⟩ 4 31).sampling.position = 31
    ∧ running.sampling.history.length < 63 ∧ running.survey.settings.declared / 10 = 2300
    ∧ rmsWith 2300 .v1 (windowState ⟨2300, 0, 0⟩ 4 63) = 2300
    ∧ rmsWith 2299 .v1 (windowState ⟨2299, 2300, 0⟩ 4 63) = 2299
    ∧ rmsWith 2300 .v2 (windowState ⟨2299, 2300, 0⟩ 4 63) = 2300
    ∧ rmsWith 2300 .v3 (windowState ⟨0, 0, 2300⟩ 4 63) = 2300
    ∧ rmsWith 0 .v3 (windowState ⟨0, 0, 0⟩ 4 63) = 0
    ∧ ((tracking .v1).powered = true ∧ (tracking .v1).sampling.outstanding = true
      ∧ (tracking .v1).sampling.position = 63 ∧ (tracking .v1).sampling.history.length = 63
      ∧ (tracking .v1).sampling.reference = some .v1 ∧ (tracking .v2).sampling.reference = some .v2)
    ∧ (patchedSet (tracking .v1).sampling).patched = true
    ∧ (windowState ⟨2300, 0, 0⟩ 3 31).sampling.position < 63 := by decide +kernel

/-- R7: an end window that chooses V1 drops the history of V2, also one that a patched set completes; V1's stands. -/
theorem test_review :
    ([Instr.sampleSetArrival 2300 0 0 false, .strobeDue].map fun i => match exec i (tracking .v2) with
      | .next t => (t.sampling.reference, t.sampling.armed)
      | .fault _ | .refused _ => (none, true)) = [(some .v1, false), (some .v1, false)]
    ∧ (match exec (.sampleSetArrival 2300 0 0 false) (tracking .v1) with
      | .next t => (t.sampling.reference, t.sampling.armed)
      | .fault _ | .refused _ => (none, false)) = (some .v1, true) := by decide +kernel

/-- An end window of cycle 3 with the same residual on every channel. -/
def window (residual : Nat) (valid : Bool) : WindowResult :=
  { number := 6, cycle := 3, kind := .end_, endMs := 79, rms := ⟨0, 0, 0⟩
    residual := ⟨residual, residual, residual⟩, patched := 0, overrange := false, valid := valid }

/-- The running station with the detector in a state, over a recorded event. -/
def detecting (state : DetectorState) (count : Nat) : State :=
  { recorded with
    detector := { recorded.detector with
      state := state, settleCount := count
      event := .recorded (EventWork.opening Settings.default (window 899 true) 2 5 1 false) }
    store := { recorded.store with dir := recorded.store.dir.map fun e => { e with open_ := e.kind == .event } }
    capture := { recorded.capture with ring := [1, 2].map fun n => {
      number := n, startTick := 0, period := 20000, sets := List.replicate 64 lastSet, patched := 0, overrange := 0
      valid := true } } }

theorem meets_DetectorFollowsItsStates :
    standby.detector.state = .held ∧ standby.survey.running = false
    ∧ running.survey.running = true ∧ running.clock.isCounting = true ∧ running.supply.state ≠ .safe
    ∧ (detecting .quiet 0).detector.state = .quiet
    ∧ belowThreshold Settings.default (window 899 true) = true
    ∧ belowThreshold Settings.default (window 900 true) = false
    ∧ (detecting .event 0).detector.state = .event ∧ isRecovered Settings.default (window 920 true) = true
    ∧ isRecovered Settings.default (window 919 true) = false ∧ (window 919 false).valid = false
    ∧ ({ Settings.default with settle := 0 } : Settings).settle = 0 ∧ Settings.default.settle ≠ 0
    ∧ (detecting .settle 1).detector.settleCount ≤ 1 ∧ 1 < (detecting .settle 2).detector.settleCount := by
  decide +kernel

/-- Settings that want `n` cycles before and after, and `n` after a recovery. -/
def wanting (n : Nat) (s : State) : State := { s with survey := { s.survey with
  settings := { s.survey.settings with preCycles := n, postCycles := n, endCycles := n } } }

theorem ringBefore_detecting (state : DetectorState) (count : Nat) :
    RingBefore (detecting state count) (window 0 true).cycle := by
  intro k x h
  match k, h with
  | 0, h => cases h; rfl
  | 1, h => cases h; rfl
  | _ + 2, h => exact absurd h (by simp [detecting])

/-- The start waveform's id and status after a window, with its event recorded. -/
def startOf (s : State) : List (CaptureStatus × Option Nat × Bool) :=
  match s.detector.event with
  | .recorded e => [(e.startStatus, e.startId, e.notice)]
  | _ => []

theorem meets_EventOpensOnASag :
    (detecting .quiet 0).detector.state = .quiet ∧ (window 899 true).valid = true
    ∧ belowThreshold (detecting .quiet 0).survey.settings (window 899 true) = true
    ∧ 1 ≤ (detecting .quiet 0).store.freeCount ∧ (detecting .quiet 0).store.idCounter + 1 < 65536
    ∧ (detecting .quiet 0).supply.state ≠ .safe ∧ StoreLaw (detecting .quiet 0) ∧ QueueLaw (detecting .quiet 0)
    ∧ (∀ c ∈ (detecting .quiet 0).capture.ring, c.sets.length = 64) ∧ slot (detecting .quiet 0) 0 = none
    ∧ 9 + 3 * (min 1 2 + 1) ≤ (detecting .quiet 0).store.freeCount
    ∧ startOf (detectorWindow (window 899 true) (wanting 1 (detecting .quiet 0))).1 = [(.full, some 7, true)]
    ∧ startOf (detectorWindow (window 899 true) (wanting 2 (detecting .quiet 0))).1 = [(.partial_, some 7, true)]
    ∧ startOf (detectorWindow (window 899 true) (wanting 0 (detecting .quiet 0))).1 = [(.none, none, true)] := by
  unfold StoreLaw QueueLaw; decide +kernel

theorem meets_EventKeepsItsWindows :
    (detecting .event 0).detector.event
      = .recorded (EventWork.opening Settings.default (window 899 true) 2 5 1 false)
    ∧ isRecovered (detecting .event 0).survey.settings (window 49 true) = false
    ∧ isInterrupted Settings.default (window 49 true) = true
    ∧ (window 920 false).valid = false ∧ (detecting .settle 2).detector.state = .settle
    ∧ belowThreshold (detecting .settle 2).survey.settings (window 899 true) = true
    ∧ belowThreshold (detecting .settle 2).survey.settings (window 900 true) = false
    ∧ 1 < (detecting .settle 2).detector.settleCount := by decide +kernel

/-- The recovery and the close: the open record, the end capture asked for or not, and granted in whole or in part. -/
theorem meets_EventKeepsItsWindows_close :
    StoreLaw (detecting .event 0)
    ∧ findEntry (detecting .event 0) 2 = some { entry 2 .event [2] with pins := some 1, open_ := true }
    ∧ (detecting .settle 1).detector.settleCount ≤ 1
    ∧ isRecovered (detecting .event 0).survey.settings (window 920 true) = true
    ∧ ({ entry 2 .event [2] with pins := some 1, open_ := true } : Entry).desc = none
    ∧ (detecting .event 0).detector.endAsked = false ∧ (∀ i, slot (detecting .event 0) i = none)
    ∧ (slot capturing 0).map (fun y => (y.kind, y.parent.map LatestEvent.recId)) = some (.ownStart, some 2)
    ∧ Settings.default.settle ≠ 0 ∧ ({ Settings.default with settle := 0 } : Settings).settle = 0
    ∧ (endCapture 3 { number := 5, recId := 2 } (wanting 2 (detecting .event 0))).2 = (.full, some 6)
    ∧ (endCapture 3 { number := 5, recId := 2 } (wanting 4 (detecting .event 0))).2 = (.partial_, some 6)
    ∧ 8 + 3 * (min 2 2 + 2) ≤ (detecting .event 0).store.freeCount := by unfold StoreLaw; decide +kernel

theorem meets_ThdIsTheRatioOfTheRoots :
    (1 :: List.replicate 24 32767).length = 25 ∧ (∀ x ∈ 1 :: List.replicate 24 32767, x ≤ 32767)
    ∧ thdOf (1 :: List.replicate 24 32767) = some 9999 ∧ thdOf (0 :: List.replicate 24 32767) = none
    ∧ (completedCycle running.sampling).valid = true
    ∧ (List.replicate 64 (-32767 : Int)).length = 64
    ∧ (∀ v ∈ List.replicate 64 (-32767 : Int), -32767 ≤ v ∧ v ≤ 32767) := by
  decide +kernel

/-- R61: the entries listed of the two tables. -/
theorem test_tables : ([0, 1, 4, 8, 16, 24, 32, 48].map fun k => (cosEntry k, sinEntry k))
    = [(32767, 0), (32609, 3212), (30273, 12539), (23170, 23170), (0, 32767), (-23170, 23170), (-32767, 0),
      (0, -32767)] := by decide +kernel

/-- R71: a cycle whose marks carry the events 5 and 6 counts both in window order, 5 not again when it was counted
last. -/
theorem test_event_counts :
    ([none, some 5].map fun last =>
      let i := Interval.takeCycle (completedCycle running.sampling)
        (some { eventWindow := true, number := some 5, opened := false })
        (some { eventWindow := true, number := some 6, opened := true })
        { newInterval Settings.default 0 0 true with lastEvent := last }
      (i.events, i.firstEvent, i.lastEvent)) = [(2, some 5, some 6), (1, some 6, some 6)] := by decide +kernel

/-- A station that measures, at a window's last strobe, at 600 s of the survey clock. -/
def atBoundary (n endBoundary : Nat) (waiting : Bool) : State :=
  let s : State := windowState ⟨2300, 0, 0⟩ 0 n
  { s with
    sampling := { s.sampling with strobeTick := 600000000, firstCyclePending := waiting }
    harmonic := { s.harmonic with
      interval := some { newInterval Settings.default 0 0 true with endBoundary := endBoundary } } }

theorem meets_IntervalEndsAtTheNextBoundary :
    0 < Settings.default.minutes ∧ (599999 < 600000 ∧ 1000 ∣ 600000 ∧ 60 * 10 ∣ 0 + 600000 / 1000)
    ∧ (atBoundary 31 600000 false).powered = true ∧ (atBoundary 31 600000 false).sampling.outstanding = true
    ∧ (atBoundary 63 600000 true).sampling.firstCyclePending = true
    ∧ 63 ≤ (atBoundary 31 600000 false).sampling.history.length
    ∧ (atBoundary 31 600000 false).harmonic.interval.map Interval.endBoundary
        = some (windowResult .mid (placeSet lastSet (atBoundary 31 600000 false))).endMs
    ∧ (windowResult .end_ (placeSet lastSet (atBoundary 63 600001 false))).endMs < 600001
    ∧ (windowResult .end_ (placeSet lastSet (atBoundary 63 600001 false))).valid = true
    ∧ (atBoundary 63 600001 false).harmonic.interval.isSome = true
    ∧ (windowResult .end_ (placeSet (patchedSet (atBoundary 63 600001 false).sampling)
        (atBoundary 63 600001 false))).endMs < 600001
    ∧ StoreLaw (atBoundary 31 600000 false) := by unfold StoreLaw; decide +kernel

/-- The recorded survey with an interval open. -/
def measuring : State := { recorded with
  harmonic := { recorded.harmonic with interval := some (newInterval Settings.default 0 0 true) } }

theorem meets_ClosedIntervalIsRecordedOrCounted :
    measuring.harmonic.interval = some (newInterval Settings.default 0 0 true)
    ∧ 11 ≤ measuring.store.freeCount ∧ measuring.store.idCounter < 65536 ∧ measuring.supply.state ≠ .safe
    ∧ StoreLaw measuring := by unfold StoreLaw; decide +kernel

/-- The recorded survey with its event unpinned and open, and a start waveform of it. -/
def waved : State := { detecting .event 0 with store := { (detecting .event 0).store with
  idCounter := 7
  dir := [{ entry 2 .event [2] with pins := some 0, open_ := true },
    { entry 6 .waveformStart [8, 9, 10] with parent := some 2 }] } }

theorem meets_AllocationKeepsTheReserve :
    StoreLaw recorded ∧ ({ recorded with supply := { recorded.supply with state := .safe } } : State).supply.state = .safe
    ∧ recorded.supply.state ≠ .safe ∧ recorded.store.idCounter < 65536
    ∧ 12 + Asker.reserve .companion ≤ recorded.store.freeCount
    ∧ (allocate .companion 12 (entry 0 .companion []) recorded).2 = .made 6 12
    ∧ (allocate (.own 2) 48 (entry 0 .waveformStart []) recorded).2 = .made 6 12
    ∧ (allocate .companion 13 (entry 0 .companion []) recorded).2 = .storeFull :=
  ⟨storeLaw_recorded, by decide +kernel⟩

/-- A start waveform is shed for another event's capture and for a note, and spared for its own event's. -/
theorem meets_AllocationKeepsTheReserve_shed :
    ([(Asker.own 9, 15), (.own 2, 15), (.oneBlock, 21), (.companion, 15)].map fun x =>
        let r := allocate x.1 x.2 (entry 0 .note []) waved
        (r.2, r.1.store.dir.map Entry.id, r.1.store.shed, r.1.store.refused))
      = [(.made 7 15, [2, 7], 1, 0), (.made 7 12, [2, 6, 7], 0, 0), (.made 7 21, [2, 7], 1, 0),
        (.storeFull, [2, 6], 0, 1)]
    ∧ (allocate .oneBlock 1 (entry 0 .note []) { recorded with store := { recorded.store with idCounter := 65536 } }).2
      = .storeFull
    ∧ (allocate (.own 2) 3 (entry 0 .note []) { recorded with store := { recorded.store with
        free := [100], freeCount := 1 } }).2 = .nothing
    ∧ StoreLaw waved ∧ ParentLaw waved :=
  ⟨by decide +kernel, by decide +kernel, by decide +kernel, by unfold StoreLaw; decide +kernel,
    parentLaw _ (by decide +kernel) (by decide +kernel) (.inr ⟨_, rfl, by decide +kernel⟩)⟩

/-- The recorded survey with a start waveform of the pinned event, and a second one held. -/
def pinned : State := { recorded with store := { recorded.store with
  idCounter := 8
  dir := recorded.store.dir ++ [{ entry 6 .waveformStart [8, 9, 10] with parent := some 2 },
    { entry 7 .companion [11] with hold := true }] } }

theorem meets_SheddingSparesProtectedRecords :
    StoreLaw pinned ∧ { entry 6 .waveformStart [8, 9, 10] with parent := some 2 } ∈ pinned.store.dir
    ∧ parentPins pinned { entry 6 .waveformStart [8, 9, 10] with parent := some 2 } = 1
    ∧ { entry 7 .companion [11] with hold := true } ∈ pinned.store.dir
    ∧ entry 4 .context [4] ∈ pinned.store.dir :=
  ⟨by unfold StoreLaw; decide +kernel, by decide +kernel⟩

/-! Records, notes, surveys. -/

/-- A fetch cursor of station 8 on the interval record, at a position. -/
def fetching (recId : Nat) : State := { recorded with store := { recorded.store with
  cursors := [{ station := 8, recId := recId, gone := false, parts := [(.header, 42)], position := 40, lastUse := 0 }] } }

/-- The recorded survey with the cursors of four other stations, station 12's last used longest ago. -/
def fourCursors : State := { recorded with store := { recorded.store with
  useStamp := 4
  cursors := [((9 : Station), 4), (10, 3), (11, 2), (12, 1)].map fun c =>
    { station := c.1, recId := 5, gone := false, parts := [(.header, 42)], position := 0, lastUse := c.2 } } }

/-- R94: a fifth station's setup takes the cursor whose last use is the oldest. -/
theorem test_oldest_cursor_is_taken :
    (match exec (.fetchSetup (to1 8 [9, 0, 5, 1, 0, 0, 0, 42])) fourCursors with
      | .next t => t.store.cursors.map fun c => (c.station, c.position)
      | .fault _ | .refused _ => []) = [(9, 0), (10, 0), (11, 0), (8, 42)] := by decide +kernel

theorem meets_FetchReadsARecord :
    Asks (to1 8 [9, 0, 5, 1, 0, 0, 0, 42]) 8 recorded ∧ byteAt [9, 0, 5, 1, 0, 0, 0, 42] 4 % 16 ≠ 0
    ∧ findEntry recorded (u16At [9, 0, 5, 1, 0, 0, 0, 42] 2) = some { entry 5 .interval [5, 6, 7] with time := 10 }
    ∧ recorded.store.cursors.length ≤ 4
    ∧ byteAt [9, 0, 5, 16, 0, 0, 0, 42] 4 % 16 = 0 ∧ findEntry recorded (u16At [9, 0, 99, 1, 0, 0, 0, 42] 2) = none
    ∧ Asks (to1 8 [9, 0, 5, 1, 0, 0, 0, 42]) 8 fourCursors ∧ (findEntry fourCursors 5).isSome = true
    ∧ (fourCursors.store.cursors.filter fun c => c.station != 8).length = 4 ∧ fourCursors.store.cursors.length ≤ 4
    ∧ Asks (to1 8 [9]) 1 (fetching 5) ∧ findCursor recorded 8 = none
    ∧ (findCursor (fetching 5) 8).isSome = true ∧ (findEntry (fetching 5) 5).isSome = true
    ∧ (findCursor (fetching 9) 8).isSome = true ∧ findEntry (fetching 9) 9 = none
    ∧ (findCursor (fetching 5) 8).map Cursor.gone = some false
    ∧ (findEntry capturing 2).map Entry.chain = some [2] ∧ (findEntry capturing 5).map Entry.chain = some [5, 6, 7]
    ∧ (findEntry capturing 6).map (fun e => (e.kind, e.chain.length, e.desc)) =
        some (.waveformStart, 3 * 2, some (descriptor 2 1 2 1 everyChannel))
    ∧ (findEntry capturing 7).map (fun e => (e.kind, e.chain.length, e.desc)) =
        some (.companion, 1 * ((4 + 1) / 2), some (descriptor 2 1 4 2 onlyV1)) := by decide +kernel

/-- R93: the lengths of the header part and of the channels V1 to V3 of an event, an interval, a start waveform of one
written cycle, and a companion of V1 alone at decimation 2. -/
theorem test_part_lengths :
    ([2, 5, 6, 7].map fun n => (findEntry capturing n).map fun e => (measuredParts capturing e 15).map Prod.snd)
    = [some [128, 0, 0, 0], some [42, 110, 110, 110], some [36, 128, 128, 128], some [36, 64, 0, 0]] := by
  decide +kernel

/-- The recorded survey in a supply state, its hold-up timer as it runs there. -/
def supplied (state : SupplyState) : State := { recorded with
  supply := { recorded.supply with state := state, holdUpTimer := if state = .holdup then some 400000 else none } }

theorem meets_DiscardReleasesTheRecord_wave :
    Asks (to1 8 [9, 0, 6]) 3 waved
    ∧ findEntry waved (u16At [9, 0, 6] 2) = some { entry 6 .waveformStart [8, 9, 10] with parent := some 2 }
    ∧ parentPins waved { entry 6 .waveformStart [8, 9, 10] with parent := some 2 } = 0 ∧ waved.supply.state ≠ .safe
    ∧ findEntry waved 2 = some { entry 2 .event [2] with pins := some 0, open_ := true }
    ∧ (startOf waved).length = 1 := by decide +kernel

theorem meets_DiscardReleasesTheRecord :
    Asks (to1 8 [9, 0, 5]) 3 recorded
    ∧ findEntry recorded (u16At [9, 0, 5] 2) = some { entry 5 .interval [5, 6, 7] with time := 10 }
    ∧ parentPins recorded { entry 5 .interval [5, 6, 7] with time := 10 } = 0 ∧ recorded.supply.state ≠ .safe
    ∧ findEntry recorded (u16At [9, 0, 99] 2) = none
    ∧ (findEntry recorded (u16At [9, 0, 4] 2)).map Entry.kind = some .context
    ∧ (Asks (to1 8 [9, 0, 7]) 3 capturing ∧ (findEntry capturing 7).map Entry.open_ = some true)
    ∧ (Asks (to1 8 [9, 0, 7]) 3 pinned ∧ (findEntry pinned 7).map (fun e => (e.open_, e.hold)) = some (false, true))
    ∧ (findEntry pinned 6).map (fun e => (e.open_, e.hold, e.parent)) = some (false, false, some 2)
    ∧ pinCount pinned 2 ≠ 0 ∧ Asks (to1 8 [9, 0, 5]) 3 (supplied .safe) ∧ (supplied .safe).supply.state = .safe
    ∧ (findEntry (supplied .safe) 5).map (fun e => (e.open_, e.hold, e.parent)) = some (false, false, none) := by
  decide +kernel

/-- The part after a stop: whether it runs, what the marker reads, and the ids of the records. -/
def afterStop (point : StopPoint) (s : State) : Bool × Bool × List Nat :=
  match exec (.supplyCut point) s with
  | .next t => (t.powered, t.store.writing, t.store.dir.map Entry.id)
  | .fault _ | .refused _ => (true, false, [])

/-- R98: a stop within a DISCARD leaves the marker WRITING; one that finds nothing to discard leaves it as it was. -/
theorem test_stop_in_discard :
    afterStop (.inDiscard (to1 8 [9, 0, 5])) recorded = (false, true, [1, 2, 3, 4])
    ∧ afterStop (.inDiscard (to1 8 [9, 0, 4])) recorded = (false, false, [1, 2, 3, 4, 5]) := by decide +kernel

/-- R96: the first check that fails gives the reason. -/
theorem test_discard_reasons :
    discardRefusal recorded (findEntry recorded 99) = some .noRecord
    ∧ discardRefusal recorded (findEntry recorded 4) = some .wrongKind
    ∧ discardRefusal capturing (findEntry capturing 7) = some .open_
    ∧ discardRefusal pinned (findEntry pinned 7) = some .held
    ∧ discardRefusal pinned (findEntry pinned 6) = some .pinned
    ∧ discardRefusal (supplied .safe) (findEntry (supplied .safe) 5) = some .safe := by decide +kernel

/-- The same with only so many blocks free. -/
def without (n : Nat) (s : State) : State :=
  { s with store := { s.store with free := s.store.free.take n, freeCount := (s.store.free.take n).length } }

/-- The recorded survey with five contexts open of 254 made. -/
def nested : State := { recorded with notes := { recorded.notes with stack := [1, 2, 3, 4, 5], contexts := 254 } }

theorem meets_ContextsOpenAndClose :
    2 ≤ (to1 8 [9, 1, 0x41]).payload.length ∧ Asks (to1 8 [9, 1, 0x41]) (2 + byteAt [9, 1, 0x41] 2) nested
    ∧ (contextChecks nested).find? Prod.fst = none ∧ StoreLaw nested ∧ noBlockRoom nested = false
    ∧ 1 ≤ nested.store.freeCount ∧ noBlockRoom (without 0 nested) = true ∧ StoreLaw (without 0 nested)
    ∧ (contextChecks (without 0 nested)).find? Prod.fst = none
    ∧ Asks (to1 8 [9]) 1 nested ∧ nested.notes.stack = [1, 2, 3, 4] ++ [5] ∧ recorded.notes.stack = [] := by
  unfold StoreLaw; decide +kernel

/-- R104: each check fails in turn; the labels' answers of R103. -/
theorem test_context_answers :
    let notes := fun (stack : List Nat) (n : Nat) =>
      { recorded with notes := { recorded.notes with stack := stack, contexts := n } }
    ([standby, supplied .safe, notes [1, 2, 3, 4, 5, 6] 6, notes [] 255, recorded].map fun s =>
      ((contextChecks s).find? Prod.fst).map Prod.snd)
    = [some .notRunning, some .safe, some .stackFull, some .countFull, none]
    ∧ [textAnswered 24 3 [0x41, 0x7E] 1 6, textAnswered 24 3 [0x41, 0x7F] 1 6,
        textAnswered 24 3 (List.replicate 25 0x41) 1 6] = [.accepted 1 6, .clamped 4 1 6, .clamped 27 1 6]
    ∧ textHeld 24 (0x1F :: List.replicate 24 0x20) = 0x3F :: List.replicate 23 0x20 := by decide +kernel

theorem meets_NoteAddWritesANote :
    5 ≤ (to1 8 [9, 2, 0, 5, 1, 0x41]).payload.length
    ∧ Asks (to1 8 [9, 2, 0, 5, 1, 0x41]) (5 + byteAt [9, 2, 0, 5, 1, 0x41] 5) recorded ∧ StoreLaw recorded
    ∧ (noteChecks [9, 2, 0, 5, 1, 0x41] recorded).find? Prod.fst = none
    ∧ (noteChecks [9, 0, 0, 0, 1, 0x41] recorded).find? Prod.fst = none
    ∧ recorded.notes.stack.length ≤ 6 ∧ 1 ≤ recorded.store.freeCount
    ∧ noteEvent [9, 2, 0, 5, 1, 0x41] recorded = some { number := 5, recId := 2 }
    ∧ findEntry recorded 2 = some { entry 2 .event [2] with pins := some 1 }
    ∧ noBlockRoom (withPinRaised { number := 5, recId := 2 } recorded) = false
    ∧ noBlockRoom (withPinRaised { number := 5, recId := 2 } (without 0 recorded)) = true
    ∧ StoreLaw (without 0 recorded) ∧ (noteChecks [9, 2, 0, 5, 1, 0x41] (without 0 recorded)).find? Prod.fst = none
    ∧ StoreLaw (detecting .event 0) ∧ noteEvent [9, 2, 0, 5, 1, 0x41] (detecting .event 0) = some ⟨5, 2⟩
    ∧ (findEntry (detecting .event 0) 2).map Entry.open_ = some true := by
  unfold StoreLaw; decide +kernel

/-- R106: each check fails in turn, and refuses with its reason and index. -/
theorem test_note_refusals :
    let event := fun (pins : Nat) (status : Byte) => { recorded with store := { recorded.store with
      mem := Memory.write recorded.store.mem (256 + 27) [status]
      dir := recorded.store.dir.map fun e => if e.kind = .event then { e with pins := some pins } else e } }
    ([([9, 2, 0, 5, 1, 0x41], standby), ([9, 2, 0, 5, 1, 0x41], supplied .safe), ([9, 3, 0, 5, 1, 0x41], recorded),
      ([9, 2, 0, 0, 1, 0x41], recorded), ([9, 2, 0, 5, 0], recorded), ([9, 2, 0, 6, 1, 0x41], recorded),
      ([9, 1, 0, 5, 1, 0x41], recorded), ([9, 2, 0, 5, 1, 0x41], event 15 3), ([9, 2, 0, 5, 1, 0x41], event 14 3),
      ([9, 2, 0, 5, 1, 0x41], event 14 2)].map fun x => ((noteChecks x.1 x.2).find? Prod.fst).map Prod.snd)
    = [some (.notRunning, 0), some (.safe, 0), some (.badField, 2), some (.badField, 3), some (.badField, 5),
      some (.noEvent, 0), some (.noEvent, 0), some (.pinFull, 0), some (.shedWaveform, 0), none] := by decide +kernel

/-- R109: a stop within a NOTE_ADD leaves the pin one too high, in byte 35 too, and no note. -/
theorem test_stop_in_note_add :
    (match exec (.supplyCut (.inNoteAdd (to1 8 [9, 2, 0, 5, 1, 0x41]))) recorded with
      | .next t => (pinCount t 2, Memory.readByte t.store.mem (256 + 34), t.store.idCounter, t.notes.nextNote)
      | .fault _ | .refused _ => (0, 0, 0, 0)) = (2, 2, 6, recorded.notes.nextNote) := by decide +kernel

/-- The recorded survey with its note struck before. -/
def struck : State := { recorded with store := { recorded.store with
  mem := Memory.write recorded.store.mem (384 + 8) [1] } }

theorem meets_NoteStrikeMarksTheNote :
    Asks (to1 8 [9, 0, 2]) 3 recorded ∧ StoreLaw recorded ∧ u16At [9, 0, 2] 2 ≠ 0
    ∧ recorded.survey.running = true ∧ recorded.survey.number = 1
    ∧ findNote recorded 1 (u16At [9, 0, 2] 2) = some (entry 3 .note [3]) ∧ findNote recorded 1 3 = none
    ∧ byteAt (recordBytes recorded (entry 3 .note [3])) 9 = 0
    ∧ findEvent recorded 1 (u16At (recordBytes recorded (entry 3 .note [3])) 10)
        = some { entry 2 .event [2] with pins := some 1 }
    ∧ byteAt (recordBytes struck (entry 3 .note [3])) 9 ≠ 0
    ∧ findNote struck 1 2 = some (entry 3 .note [3]) ∧ StoreLaw struck := by
  unfold StoreLaw; decide +kernel

/-- R110: a strike marks the note and lowers the pin; a stop between the two leaves the pin, and the marker WRITING. -/
theorem test_strike_and_stop :
    ([Instr.noteStrike (to1 8 [9, 0, 2]), .supplyCut (.inNoteStrike (to1 8 [9, 0, 2]))].map fun i =>
      match exec i recorded with
      | .next t => (byteAt (recordBytes t (entry 3 .note [3])) 9, pinCount t 2, t.store.writing)
      | .fault _ | .refused _ => (0, 0, false)) = [(1, 0, false), (1, 1, true)] := by decide +kernel

theorem meets_SurveySetWritesTheFields :
    Reaches (to1 8 [9, 2, 15, 3, 222, 101, 3, 222, 21]) standby ∧ standby.survey.running = false
    ∧ setFault [9, 2, 15, 3, 222, 101, 3, 222, 21] = none ∧ setFault [9, 0, 15] = some 2
    ∧ setFault [9, 7, 4, 8] = none ∧ byteAt [9, 7, 4, 8] 2 = 7 ∧ running.survey.running = true
    ∧ firstPart PartValue.isBadChoice (readFields [9, 7, 4, 7] 4 (chosenFields [9, 7, 4, 7])) = some 4
    ∧ firstPart PartValue.isBadChoice (readFields [9, 7, 4, 8] 4 (chosenFields [9, 7, 4, 8])) = none
    ∧ [9, 2, 15, 3, 222, 101, 3, 222, 21] = [9, 2, 15, ((990#16) >>> (8 : Nat)).setWidth 8, (990#16).setWidth 8, 101,
        ((990#16) >>> (8 : Nat)).setWidth 8, (990#16).setWidth 8, (21 : Byte)]
    ∧ (1 ≤ 7 ∧ 7 < 2 ^ (settingRows 4).length
      ∧ [0, 1, 49].length = (masked 7 (settingRows 4)).length
      ∧ ((masked 7 (settingRows 4)).zip [0, 1, 49]).all (fun x => decide (x.2 < 256 ^ x.1.width)) = true
      ∧ [9] ++ u8 4 ++ u8 7 ++ settingBytes ((masked 7 (settingRows 4)).zip [0, 1, 49]) = [9, 4, 7, 0, 1, 0, 49])
    ∧ 3 + (masked 127 (settingWidths 5)).sum = 34 ∧ (settingWidths 7).length = 5
    ∧ BitVec.ofNat 8 (2 ^ ((5 : Fin 6).val + 1)) = 64#8 := by decide +kernel

/-- The payload of the first answer in the queue after a command. -/
def answerTo (i : Instr) (s : State) : Option (List Byte) :=
  match exec i s with
  | .next t => (t.link.queue.find? fun g => g.kind == .answer).map TxFrame.payload
  | .fault _ | .refused _ => none

/-- 10.7, R176: L between two allowed values and below 1, an offer count above 6, a frequency of 55, an empty channel
set, a decimation of 3, each answered with its byte. -/
theorem test_settings_answers :
    ([[9, 4, 1, 14], [9, 4, 1, 0], [9, 4, 1, 15], [9, 5, 1, 7], [9, 1, 1, 55], [9, 5, 2, 8, 9, 25, 3, 61],
        [9, 5, 2, 7, 9, 25, 3, 61], [9, 5, 2, 7, 9, 25, 2, 61]].map fun p =>
      (answerTo (.surveySet (to1 8 p)) standby).map fun a => (a.drop 2).take 3)
    = [some [1, 0, 4], some [1, 0, 4], some [0, 0, 0], some [1, 0, 4], some [2, 1, 4], some [2, 1, 4], some [2, 1, 7],
      some [1, 0, 5]] := by decide +kernel

theorem meets_SurveyStartBeginsASurvey :
    Asks (to1 8 [9, 0, 7, 0, 0, 0, 1, 0]) 8 standby ∧ StoreLaw standby
    ∧ (startChecks [9, 0, 7, 0, 0, 0, 1, 0] standby).find? Prod.fst = none
    ∧ (startChecks [9, 0, 7, 0, 0, 0, 1, 1] standby).find? Prod.fst = none ∧ 1 ≤ standby.store.freeCount := by
  unfold StoreLaw; decide +kernel

/-- An offer of one channel and two cycles, 66 blocks below which it is not open. -/
def smallOffer : Offer := { channels := onlyV1, pre := 0, post := 1, decimation := 1, rate := 2 }

/-- A station in STANDBY that would seek and serve, a peer already in survey 7. -/
def seeking (silent : Bool) (limit : Option Nat) : State :=
  setPeer 2 { Peer.empty with present := true, running := true, surveyId := 7 } { standby with
    survey := { standby.survey with settings := { Settings.default with
      seek := true, serve := true, offerCount := 1, offers := #v[some smallOffer, none, none, none, none, none] } }
    agreement := { Agreement.restarted with revision := 65535, sendLimit := limit }
    link := { standby.link with silent := silent } }

theorem offersLaw_seeking (silent : Bool) (limit : Option Nat) : OffersLaw (seeking silent limit) := by
  refine ⟨rfl, fun st p h => ?_⟩
  have e : ∀ st, (peer (seeking false none) st).provider = none := by decide +kernel
  exact absurd ((e st).symm.trans h) nofun

theorem meets_SurveyStartBeginsASurvey_offers :
    ([seeking true none, seeking false (some 1), seeking false (some 0)].map fun s =>
      (s.link.silent, s.agreement.sendLimit, decide (∃ d, s.agreement.sendLimit = some d ∧ s.now < d), (peer s 2).surveyId,
        ((startChecks [9, 0, 7, 0, 0, 0, 1, 0] s).find? Prod.fst).isNone))
    = [(true, none, false, 7, true), (false, some 1, true, 7, true), (false, some 0, false, 7, true)] := by
  simp only [List.map_cons, List.map_nil]
  decide +kernel

/-- R115, R129: the start forms the list, raises the revision from 65535 to 0, and sets the peer's record to NO_OFFER. -/
theorem test_start_forms_the_offers :
    (match exec (.surveyStart (to1 8 [9, 0, 7, 0, 0, 0, 1, 0])) (seeking false none) with
      | .next t => (t.agreement.revision, t.agreement.list.length, (peer t 2).requester.state,
          (peer t 2).requester.retryTimer, (t.link.queue.map TxFrame.kind).head?)
      | .fault _ | .refused _ => (9, 9, .none, none, none))
    = (0, 1, .noOffer, some 5000000, some .offers) := by decide +kernel

/-- R177: each check fails in turn, and refuses with its reason. -/
theorem test_start_refusals :
    let under := fun g : Settings => { standby with survey := { standby.survey with settings := g } }
    let ids := fun n : Nat => { standby with store := { standby.store with idCounter := n } }
    let d := Settings.default
    ([([9, 0, 0, 0, 0, 0, 1, 0], standby), ([9, 0, 7, 188, 25, 19, 128, 0], standby),
      ([9, 0, 7, 0, 0, 0, 1, 2], standby),
      ([9, 0, 7, 0, 0, 0, 1, 0], running), ([9, 0, 7, 0, 0, 0, 1, 0], under { d with interruption := d.threshold }),
      ([9, 0, 7, 0, 0, 0, 1, 0], under { d with preCycles := 9, postCycles := 32 }),
      ([9, 0, 7, 0, 0, 0, 1, 1], ids 60001),
      ([9, 0, 7, 0, 0, 0, 1, 0], { standby with supply := (supplied .safe).supply }),
      ([9, 0, 7, 0, 0, 0, 1, 1], { standby with store := { standby.store with free := [], freeCount := 0 } }),
      ([9, 0, 7, 188, 25, 19, 127, 0], ids 60001)].map fun x =>
        ((startChecks (x.1.map fun n => BitVec.ofNat 8 n) x.2).find? Prod.fst).map Prod.snd)
    = [some (.badField, 2), some (.badField, 4), some (.badField, 8), some (.running, 0), some (.badField, 0),
      some (.badField, 0), some (.needsErase, 0), some (.safe, 0), some (.storeFull, 0), none] := by decide +kernel

theorem meets_SurveyEndClosesEverything :
    (Asks (to1 8 [9]) 1 running ∧ running.survey.running = true ∧ standby.survey.running = false
      ∧ Asks (to1 8 [9]) 1 capturing ∧ capturing.survey.running = true ∧ capturing.harmonic.interval = none)
    ∧ StoreLaw capturing ∧ SlotsApart capturing ∧ DescriptorLaw capturing ∧ ParentLaw capturing :=
  ⟨by decide +kernel, storeLaw_capturing, slotsApart_capturing, parents_capturing⟩

/-- An event in progress, its record open, no capture of it open and no interval. -/
theorem meets_EventStopped (s : State) (state : DetectorState) (h : s = detecting state 0) :
    s.detector.event = .recorded (EventWork.opening Settings.default (window 899 true) 2 5 1 false)
    ∧ findEntry s 2 = some { entry 2 .event [2] with pins := some 1, open_ := true }
    ∧ StoreLaw s ∧ Asks (to1 8 [9]) 1 s ∧ s.survey.running = true
    ∧ (∀ i, slot s i = none) ∧ s.harmonic.interval = none ∧ DescriptorLaw s ∧ ParentLaw s := by
  subst h
  refine ⟨rfl, ?_, ?_, ?_, ?_, ?_, ?_, ?_, parentLaw _ ?_ ?_ (.inr ⟨_, rfl, ?_⟩)⟩ <;> cases state <;>
    (try unfold StoreLaw) <;> (try unfold DescriptorLaw) <;> decide +kernel

/-- R34, R35: the event in EVENT at a survey end takes SURVEY_END and the clock's value as its end ms. -/
theorem test_survey_end_closes_the_event :
    (match exec (.surveyEnd (to1 8 [9])) (detecting .event 0) with
      | .next t => (findEntry t 2).map fun e => (e.open_, bitAt (recordBytes t e) 6 0, bitAt (recordBytes t e) 36 1)
      | .fault _ | .refused _ => none) = some (false, true, true) := by decide +kernel

/-- R98: a stop within a survey end leaves the header ENDED and the marker WRITING, the survey not yet in STANDBY. -/
theorem test_stop_in_survey_end :
    (match exec (.supplyCut (.inSurveyEnd (to1 8 [9]))) recorded with
      | .next t => (t.powered, t.survey.running, t.store.writing, byteAt (recordBytes t (entry 1 .header [1])) 9)
      | .fault _ | .refused _ => (true, false, false, 0)) = (false, true, true, 1) := by decide +kernel

theorem meets_StatusReportsASection :
    Asks (to1 8 [9, 11, 0]) 3 standby ∧ (sectionOf 11 0 (heard (to1 8 [9, 11, 0]) standby)).toBool = true
    ∧ (sectionOf 13 0 standby).toBool = false ∧ (sectionOf 7 15 standby).toBool = true
    ∧ (sectionOf 7 16 standby).toBool = false
    ∧ (∀ n ∈ List.range 14, Asks (to1 8 [9, BitVec.ofNat 8 n, 16]) 3 standby
      ∧ byteAt [9, BitVec.ofNat 8 n, 16] 2 = n ∧ byteAt [9, BitVec.ofNat 8 n, 16] 3 = 16)
    ∧ (∀ n ∈ List.range 9, byteAt [9, 12, BitVec.ofNat 8 n] 3 = n) ∧ byteAt [9, 7, 15] 3 = (15 : Station).val ∧ standby.store.idCounter < 65536
    ∧ standby.pins.straps.prn = true ∧ standby.printer.queue = [] ∧ byteAt [9, 10, 15] 3 < 16 := by decide +kernel

/-- R175: the SURVEY section of survey 1 with id 7, and a station out of its values. -/
theorem test_survey_section :
    surveySection running = [1, 0, 1, 0, 7, 0, 0, 0, 0, 0, 0, 0, 0, 0, 0, 0]
    ∧ sectionOf 10 16 standby = .error 3 ∧ sectionOf 12 8 standby = .error 3 := by decide +kernel

/-! Agreements. -/

/-- An offer of all channels for one cycle, without decimation. -/
def oneCycle : Offer := { channels := everyChannel, pre := 0, post := 1, decimation := 1, rate := 1 }

/-- The running station serving that offer at position 1, its OFFERS timers running. -/
def serving (waiting : Bool) : State := { running with
  survey := { running.survey with settings := { Settings.default with
    serve := true, seek := true, offerCount := 1, offers := #v[some oneCycle, none, none, none, none, none] } }
  store := { running.store with free := List.range' 100 80, freeCount := 80 }
  agreement := { running.agreement with
    list := [{ position := 1, offer := oneCycle }], revision := 1, pendingOffers := waiting
    sendLimit := some 1000, refresh := some 999 } }

/-- A peer of the same survey with a requester record and a provider record. -/
def partner (r : RequesterState) (captures : Nat) (last : Option (Nat × Nat)) : Peer := { Peer.empty with
  present := true, running := true, surveyId := 7, revision := 1
  copy := some { revision := 1, offers := [{ position := 1, offer := oneCycle }] }
  requester := { Requester.none with
    state := r, position := 1, revision := 1, reason := 5, retryTimer := some 3, answerTimer := some 4 }
  provider := some { position := 1, offer := oneCycle, activationMs := 0, hourStart := 0, captures := captures
                     missed := 0, lastNotice := last } }

/-- The serving station with that peer at station 2. -/
def paired (r : RequesterState) (captures : Nat) (last : Option (Nat × Nat)) : State :=
  setPeer 2 (partner r captures last) (serving true)

/-- A survey end with an agreement of each side, and the two AGREE_END frames it hands over (R127). -/
theorem meets_SurveyEndClosesEverything_agreements :
    (peer (paired .active 0 none) (ownStation (paired .active 0 none))).provider = none
    ∧ (peer (paired .active 0 none) (ownStation (paired .active 0 none))).requester.state ≠ .active
    ∧ (∀ i, slot (paired .active 0 none) i = none) ∧ (paired .active 0 none).harmonic.interval = none
    ∧ Asks (to1 8 [9]) 1 (paired .active 0 none) ∧ (paired .active 0 none).survey.running = true
    ∧ (match exec (.surveyEnd (to1 8 [9])) (paired .active 0 none) with
      | .next t => (t.link.queue.filter fun g => g.kind == .agreeEnd).map TxFrame.payload
      | .fault _ | .refused _ => []) = [[1, 0, 2], [1, 1, 2]] := by decide +kernel

theorem meets_AgreementTimersExpire :
    (serving true).powered = true ∧ (serving true).survey.running = true ∧ (serving true).link.silent = false
    ∧ (serving true).agreement.sendLimit = some 1000 ∧ (serving true).agreement.refresh = some 999
    ∧ (serving true).agreement.pendingOffers = true ∧ (serving false).agreement.pendingOffers = false
    ∧ (999 < 1000)
    ∧ ({ serving true with now := 1000 } : State).now = 1000
    ∧ (2 : Station) ≠ ownStation (serving true)
    ∧ (peer (paired .noOffer 0 none) 2).requester.retryTimer = some 3
    ∧ (peer (paired .requested 0 none) 2).requester.answerTimer = some 4
    ∧ (let usable := fun p : Peer => p.copy.elim [] fun c =>
          if p.spent = false ∧ c.revision = p.revision then c.offers else []
      (chooseOffer (serving true).survey.settings.wants (usable (peer (paired .noOffer 0 none) 2))).isSome = true
      ∧ chooseOffer Settings.default.wants (usable Peer.empty) = none) := by decide +kernel

theorem meets_SelectionPicksByTheWantSpec :
    chooseOffer Settings.default.wants [{ position := 1, offer := oneCycle }]
      = some ({ position := 1, offer := oneCycle }, false)
    ∧ chooseOffer { Settings.default.wants with pre := 8 } [{ position := 1, offer := oneCycle }]
      = some ({ position := 1, offer := oneCycle }, true)
    ∧ chooseOffer Settings.default.wants [{ position := 1, offer := { oneCycle with decimation := 2 } }]
      = some ({ position := 1, offer := { oneCycle with decimation := 2 } }, true)
    ∧ Settings.default.wants.decimation2 = false := by decide +kernel

/-- A notice of event 5 of survey id 7 from station 2. -/
def notice : RxFrame := to1 2 [0, 7, 0, 5, 0, 3, 131, 1]

theorem meets_NoticeIsServedUnderAnAgreement :
    Reaches notice (paired .none 0 none) ∧ notice.payload.length = 8
    ∧ (peer (paired .none 0 (some (7, 5))) 2).provider.bind Provider.lastNotice = some (7, 5)
    ∧ (peer (paired .none 1 none) 2).provider.map Provider.captures = some 1
    ∧ u16At notice.payload 1 = (paired .none 0 none).survey.id ∧ oneCycle.rate ≤ 1 ∧ 0 < oneCycle.rate
    ∧ surveyMs (paired .none 0 none) - 0 < 3600000
    ∧ (paired .none 0 none).survey.running = true ∧ (paired .none 0 none).supply.state ≠ .safe
    ∧ freeSlot (paired .none 0 none) = some 0
    ∧ companionSpan (paired .none 0 none) 0 0 1 = some (0, 0, 1, false)
    ∧ channelCount oneCycle.channels * regionBlocks 1 1 + 8 ≤ (paired .none 0 none).store.freeCount
    ∧ (paired .none 0 none).store.idCounter < 65536 ∧ StoreLaw (paired .none 0 none)
    ∧ RingBefore (paired .none 0 none) (cycleInProgress (paired .none 0 none)) := by
  unfold StoreLaw
  refine ⟨?_, ?_, ?_, ?_, ?_, ?_, ?_, ?_, ?_, ?_, ?_, ?_, ?_, ?_, ?_, fun _ _ h => absurd h (by simp [paired,
    setPeer, serving, running, standby, State.reset, Capture.restarted])⟩ <;> decide +kernel

/-- The same with no agreement provided, and the notices that are missed: of another survey, with no survey, in SAFE,
with no slot, no cycle, no block or no id left. -/
theorem meets_NoticeIsServedUnderAnAgreement_missed :
    let s := paired .none 0 none
    let free := setPeer 2 { peer s 2 with provider := none } s
    (Reaches notice free ∧ (peer free 2).provider = none ∧ (peer free 2).present = true
      ∧ (peer free 2).surveyId = free.survey.id ∧ free.survey.settings.serve = true ∧ free.agreement.list ≠ [])
    ∧ u16At (to1 2 [0, 6, 0, 5, 0, 3, 131, 1]).payload 1 ≠ s.survey.id
    ∧ Reaches notice { s with survey := { s.survey with running := false } }
    ∧ Reaches notice { s with supply := { s.supply with state := .safe } }
    ∧ (∀ i, slot { s with capture := { s.capture with
        slots := Vector.replicate 4 (some (slotOf .companion 7 none (descriptor 2 1 4 2 onlyV1))) } } i ≠ none)
    ∧ companionSpan s 4 0 1 = none
    ∧ (s.store.dir = [] ∧ 8 + 0 < channelCount oneCycle.channels * regionBlocks 1 1 + 8)
    ∧ 65536 ≤ ({ s.store with idCounter := 65536 } : Store).idCounter := by decide +kernel

/-- The same with `n` blocks free, two closed companions that may be shed, one held and one open. -/
def crowded (n : Nat) : State :=
  let s := without n (paired .none 0 none)
  { s with store := { s.store with
    idCounter := 12
    dir := [{ entry 5 .companion [2, 3] with hold := true }, entry 6 .companion [4, 5],
      { entry 7 .companion [6] with open_ := true }, entry 9 .companion [10, 11]] } }

/-- R85: a companion capture of 3 blocks beside the reserve of 8, with room, with one and with two companions shed, and
refused. -/
theorem test_notice_sheds :
    ([11, 10, 8, 6].map fun n => match exec (.triggerNotice notice) (crowded n) with
      | .next t => (t.store.dir.map Entry.id, t.store.shed, t.store.refused)
      | .fault _ | .refused _ => ([], 0, 0))
    = [([5, 6, 7, 9, 12], 0, 0), ([5, 7, 9, 12], 1, 0), ([5, 7, 12], 2, 0), ([5, 6, 7, 9], 0, 1)]
    ∧ StoreLaw (crowded 8) ∧ (crowded 8).store.idCounter < 65536 := by unfold StoreLaw; decide +kernel

/-- R125: a served notice takes slot 1 for the cycle to come; one of another survey is missed; with no agreement its
sender is told NOT_HELD. -/
theorem test_notices :
    let s := paired .none 0 none
    (match exec (.triggerNotice notice) s with
      | .next t => (slot t 0).map fun x => (x.kind, x.total, x.written)
      | .fault _ | .refused _ => none) = some (.companion, 1, 0)
    ∧ (match exec (.triggerNotice (to1 2 [0, 6, 0, 5, 0, 3, 131, 1])) s with
      | .next t => (peer t 2).provider.map fun p => (p.captures, p.missed)
      | .fault _ | .refused _ => none) = some (0, 1)
    ∧ (match exec (.triggerNotice notice) (setPeer 2 { peer s 2 with provider := none } s) with
      | .next t => (t.link.queue.take 1).map fun g => (g.kind, g.payload)
      | .fault _ | .refused _ => []) = [(.agreeEnd, [0, 0, 3])] := by decide +kernel

/-- An OFFERS of one entry, for survey id 7 or another. -/
def offersOf (sender : Station) (id : Byte) : RxFrame := to1 sender [0, id, 0, 1, 1, 1, 7, 0, 1, 1, 1]

/-- Whether an OFFERS finds the station's record toward its sender selecting anew. -/
def selectsAnew (r : Requester) (listed : List Nat) : Bool :=
  r.state == .noOffer || r.state == .rejected || (r.state == .active && !listed.contains r.position)

theorem meets_OffersAreTakenFromAPeer :
    Reaches (offersOf 8 7) (serving true) ∧ offersLength (offersOf 8 7).payload = true ∧ 8 ≤ (offersOf 8 7).sender.val
    ∧ Reaches (offersOf 7 7) (serving true) ∧ (offersOf 7 7).sender.val < 8
    ∧ sameSurvey (setPeer 2 { Peer.empty with present := true } (serving true)) 2 = false
    ∧ (serving true).survey.settings.seek = true ∧ (serving true).link.silent = false
    ∧ sameSurvey (setPeer 2 { Peer.empty with present := true, running := true, surveyId := 7 } (serving true)) 2 = true
    ∧ sameSurvey (paired .active 0 none) 2 = true
    ∧ u16At (offersOf 2 6).payload 1 ≠ (serving true).survey.id
    ∧ u16At (offersOf 2 7).payload 1 = (paired .active 0 none).survey.id
    ∧ (listOf (offersOf 2 7).payload).map ListedOffer.position = [1] ∧ offersLength [0, 7, 0, 1, 0] = true
    ∧ selectsAnew (peer (paired .active 0 none) 2).requester [1] = false
    ∧ selectsAnew (peer (paired .active 0 none) 2).requester [] = true
    ∧ selectsAnew (peer (paired .noOffer 0 none) 2).requester [1] = true
    ∧ (chooseOffer (paired .noOffer 0 none).survey.settings.wants (listOf (offersOf 2 7).payload)).isSome = true
    ∧ chooseOffer (paired .noOffer 0 none).survey.settings.wants (listOf [0, 7, 0, 1, 0]) = none := by decide +kernel

theorem meets_AgreeRequestIsJudgedInOrder :
    Reaches (to1 2 [0, 7, 1, 0, 1]) (paired .none 0 none) ∧ (to1 2 [0, 7, 1, 0, 1]).payload.length = 5
    ∧ (peer (paired .none 0 none) 2).present = true ∧ (peer (paired .none 0 none) 2).running = true
    ∧ (paired .none 0 none).survey.settings.serve = true ∧ (paired .none 0 none).link.silent = false
    ∧ u16At [0, 7, 1, 0, 1] 4 = (paired .none 0 none).agreement.revision
    ∧ ((paired .none 0 none).agreement.list.find? fun l => l.position == 1).isSome = true
    ∧ ((paired .none 0 none).agreement.list.find? fun l => l.position == 6) = none
    ∧ (peer (serving true) 2).present = false
    ∧ (setPeer 2 (partner .none 0 none) running).survey.settings.serve = false
    ∧ (setPeer 2 (partner .none 0 none) running).survey.running = true
    ∧ u16At [0, 7, 1, 0, 2] 4 ≠ (paired .none 0 none).agreement.revision
    ∧ Reaches (to1 8 [0, 7, 1, 0, 1]) (paired .none 0 none) ∧ 8 ≤ (to1 8 [0, 7, 1, 0, 1]).sender.val := by
  decide +kernel

theorem meets_AgreementAnswersAreTaken :
    Reaches (to1 2 [1, 0, 1, 7, 0, 1, 1, 1]) (paired .requested 0 none)
    ∧ (peer (paired .requested 0 none) 2).requester.position = 1
    ∧ (peer (paired .requested 0 none) 2).requester.revision = u16At [1, 0, 1, 7, 0, 1, 1, 1] 2
    ∧ (peer (paired .requested 0 none) 2).requester.state = .requested
    ∧ (peer (paired .rejected 0 none) 2).requester.reason = 5
    ∧ Reaches (to1 2 [1, 0, 1, 4]) (paired .requested 0 none)
    ∧ (peer (paired .active 0 none) 2).requester.state = .active
    ∧ Reaches (to1 2 [1, 0, 1]) (paired .active 0 none) ∧ byteAt [1, 0, 1] 2 = 0
    ∧ Reaches (to1 2 [1, 1, 2]) (paired .active 0 none) ∧ byteAt [1, 1, 2] 2 = 1
    ∧ (peer (heard (to1 2 [1, 1, 2]) (paired .active 0 none)) 2).provider.isSome = true
    ∧ (peer (paired .noOffer 0 none) 2).requester.state ≠ .active := by decide +kernel

/-! The link. -/

/-- A frame of a kind in a transmit queue. -/
def queuedFrame (k : FrameKind) (sending : Bool) : TxFrame := { newFrame k none [] with inTx := sending }

/-- A link with a transmit queue. -/
def withQueue (q : List TxFrame) : State := { running with link := { running.link with queue := q } }

/-- Sixteen waiting lines. -/
def fullQueue : List TxFrame := List.replicate 16 (queuedFrame .printLine false)

theorem meets_QueuePlacesAFrame :
    fullQueue.Pairwise (fun a b => a.kind.priority ≤ b.kind.priority) ∧ fullQueue.length = 16
    ∧ (∃ g ∈ fullQueue, g.inTx = false ∧ (queuedFrame .offers false).kind.priority < g.kind.priority)
    ∧ ¬(∃ g ∈ fullQueue, g.inTx = false ∧ (queuedFrame .printLine false).kind.priority < g.kind.priority)
    ∧ [queuedFrame .presence false].Pairwise (fun a b => a.kind.priority ≤ b.kind.priority)
    ∧ (fullQueue.take 15).length < 16 ∧ running.link.silent = false
    ∧ ([queuedFrame .presence false, queuedFrame .presence false].filter isIdlePresence).length = 2
    ∧ ({ running.link with silent := true } : Link).silent = true := by decide +kernel

/-- The station in HOLDUP with a line ahead of nothing else, and then with a notice. -/
def heldUp (q : List TxFrame) : State := { withQueue q with supply := { standby.supply with state := .holdup } }

theorem meets_AttemptsBeginAndEnd :
    (withQueue [queuedFrame .offers true]).powered = true ∧ isSending (withQueue [queuedFrame .offers true]).link = true
    ∧ isSending (heldUp [queuedFrame .printLine false]).link = false
    ∧ (∀ g ∈ [queuedFrame .printLine false], (heldUp [g]).supply.state ≠ .normal ∧ 4 ≤ g.kind.priority)
    ∧ (withQueue [queuedFrame .triggerNotice false]).link.queue = [] ++ queuedFrame .triggerNotice false :: []
    ∧ ¬((withQueue []).supply.state ≠ .normal ∧ 4 ≤ (queuedFrame .triggerNotice false).kind.priority) := by
  decide +kernel

/-- The bits of a frame of no payload as a sender stuffs them, its check byte right or not. -/
def lineBits (length : Byte) (kind : BitVec 5) (right : Bool) : List Bool :=
  let checked := checkedBits kind.toNat false 1 length.toNat []
  stuffBits true 0 ([false] ++ bitsOf 3 0 ++ bitsOf 4 2 ++ checked
    ++ bitsOf 8 (crc8 checked ^^^ (if right then 0 else 1)).toNat)

/-- The three discard counters, and the wait for a free line, after a FRAME_DISCARDED of these bits. -/
def afterBits (bits : List Bool) (wait : Option Nat) : List Nat × Option Nat :=
  match exec (.frameDiscarded bits) (setWaitFree wait standby) with
  | .next t => ([t.link.badLengths, t.link.checkFailures, t.link.unknownKinds], t.link.waitFree)
  | .fault _ | .refused _ => ([], none)

/-- R169: bad length, check failure, unknown kind; a good frame leaves no trace. -/
theorem test_discards :
    (afterBits (lineBits 121 1 true) none).1 = [1, 0, 0]
    ∧ (afterBits (lineBits 0 1 false) none).1 = [0, 1, 0]
    ∧ (afterBits (lineBits 0 31 true) none).1 = [0, 0, 1]
    ∧ afterBits (lineBits 0 1 true) none = ([0, 0, 0], none) := by decide +kernel

/-- R165: after a discard nothing is a frame before ten recessive bits in a row. -/
theorem test_free_line :
    (afterBits (lineBits 0 1 false ++ List.replicate 10 true) none).2 = none
    ∧ (afterBits (lineBits 121 1 true) (some 0)).1 = [0, 0, 0]
    ∧ (afterBits (List.replicate 9 true ++ lineBits 121 1 true) (some 0)).1 = [0, 0, 0]
    ∧ (afterBits (List.replicate 10 true ++ lineBits 121 1 true) (some 0)).1 = [1, 0, 0] := by decide +kernel

/-- R165: six dominant bits in a row from the start bit on are a check failure, and so is a start bit with no more. -/
theorem test_six_equal_bits :
    afterBits (List.replicate 6 false) none = ([0, 1, 0], some 0)
    ∧ afterBits [true, true, false] none = ([0, 1, 0], some 0) := by decide +kernel

theorem meets_FramesAreJudgedAndCounted :
    standby.powered = true ∧ standby.link.waitFree = none
    ∧ 120 < (121 : Byte).toNat ∧ ((120 : Byte).toNat ≤ 120 ∧ (List.replicate 120 (0 : Byte)).length = (120 : Byte).toNat)
    ∧ (([] : List Byte).length = (0 : Byte).toNat)
    ∧ crc8 (checkedBits 1 false 1 0 []) ^^^ 1 ≠ crc8 (checkedBits 1 false 1 0 [])
    ∧ (setWaitFree (some 9) standby).link.waitFree = some 9 ∧ (setWaitFree (some 9) standby).powered = true
    ∧ List.replicate 10 true <+: List.replicate 10 true ++ [false]
    ∧ (List.replicate 19 false).length ≤ 19 ∧ (List.replicate 24 true).length ≤ 24
    ∧ Reaches (to1 2 (List.replicate 9 0)) standby ∧ Reaches (to1 2 [0, 0]) standby
    ∧ Reaches (to1 2 (List.replicate 99 0)) standby
    ∧ fitsLayout (.printGo (to1 2 [0, 4])) = some (to1 2 [0, 4], false)
    ∧ fitsLayout (.offers (to1 2 [0, 7, 0, 1, 1])) = some (to1 2 [0, 7, 0, 1, 1], false)
    ∧ fitsLayout (.jobCancel (to1 7 [1])) = some (to1 7 [1], false) ∧ blockTakes (.jobCancel (to1 7 [1])) standby = true
    ∧ frameOf (.jobOpen (to1 8 [1])) = some (to1 8 [1]) ∧ blockTakes (.jobOpen (to1 8 [1])) standby = false
    ∧ Reaches (to1 8 [1]) standby
    ∧ Reaches { to1 2 [9] with broadcast := true, dest := 0 } standby
    ∧ (requestNeed (.fetch (to1 2 []))).map (fun x => x.2.2) = some 1 ∧ (to1 2 []).broadcast = false
    ∧ (requestNeed (.contextOpen (to1 2 [9, 1]))).map (fun x => x.2.2) = some 3
    ∧ (requestNeed (.noteAdd (to1 2 [9, 0, 0, 0, 1, 65, 66]))).map (fun x => x.2.2) = some 6 := by decide +kernel

/-- R174, R187: a request too short, too long, and empty, and one sent to all, which is not answered. -/
theorem test_wrong_lengths :
    ([to1 2 [9, 0], to1 2 [9, 0, 5, 1], to1 2 [], { to1 2 [9, 0, 5] with broadcast := true }].map fun f =>
      match exec (.discard f) recorded with
      | .next t => (t.link.queue.filter fun g => g.kind == .answer).map TxFrame.payload
      | .fault _ | .refused _ => [])
    = [[[9, 20, 2, 1, 3, 0, 0, 0, 0]], [[9, 20, 2, 1, 4, 0, 0, 0, 0]], [[0, 20, 2, 1, 1, 0, 0, 0, 0]], []]
    := by decide +kernel

theorem meets_OwnNumberSilencesTheStation :
    frameOf (.fetch (to1 1 [9])) = some (to1 1 [9]) ∧ standby.powered = true ∧ (to1 1 [9]).payload.length ≤ 120
    ∧ IsForUs (to1 1 [9]) standby ∧ (to1 1 [9]).sender = ownStation standby
    ∧ ¬IsForUs { to1 2 [9] with dest := 3 } standby := by decide +kernel

/-- A PRESENCE of a recorder in STANDBY. -/
def presence (sender : Station) : RxFrame :=
  { to1 sender [0, 0, 0, 16, 0, 0, 0, 3, 0, 0] with broadcast := true }

theorem meets_PresenceIsSentAndTaken :
    standby.powered = true ∧ Reaches (presence 7) running ∧ (presence 7).payload.length = 10
    ∧ (peer running 7).present = false ∧ running.survey.running = true ∧ running.link.silent = false
    ∧ running.agreement.sendLimit.isNone = true ∧ (peer (paired .active 0 none) 2).present = true
    ∧ sameSurvey (paired .active 0 none) 2 = true ∧ byteAt (presence 2).payload 1 = 0 := by decide +kernel

/-- A PRESENCE that shows a survey of id 7 running. -/
def joins (sender : Station) : RxFrame :=
  { to1 sender [1, 0, 7, 16, 0, 0, 0, 3, 0, 0] with broadcast := true }

/-- R117, R118: a peer comes into the same survey with the seek flag on and off, stays in it, and leaves it. -/
theorem meets_PresenceIsSentAndTaken_joins :
    ([(serving true, joins 7), (running, joins 7), (paired .active 0 none, joins 2),
        (paired .active 0 none, presence 2)].map fun x => match exec (.presence x.2) x.1 with
      | .next t => (x.1.survey.settings.seek, sameSurvey x.1 x.2.sender, sameSurvey t x.2.sender,
          (peer t x.2.sender).requester.state, (peer t x.2.sender).requester.retryTimer)
      | .fault _ | .refused _ => (false, false, false, .none, none))
    = [(true, false, true, .noOffer, some 5000000), (false, false, true, .none, none),
      (true, true, true, .active, some 3), (true, true, false, .none, none)]
    ∧ Reaches (joins 7) (serving true) ∧ Reaches (joins 7) running ∧ Reaches (joins 2) (paired .active 0 none) := by
  decide +kernel

/-! Reports and printing. -/

/-- A job of a station in a state, 3 credits outstanding. -/
def jobIn (origin : Station) (state : JobState) : Job where
  origin := origin
  number := 4
  kind := 1
  render := { bankA := 0, bankB := 1, cellWidth := 8, colour := 0, energy := 1 }
  estimate := 5
  state := state
  credit := 3
  expected := 2
  lastTaken := false
  received := 1
  printed := 0

/-- The printer station with jobs, buffer lines, a head and a row. -/
def printing (jobs : List Job) (buffer : List BufferLine) (head : HeadState) (row : Option DotRow) (ready : Bool) :
    State := { standby with printer := { standby.printer with
  queue := jobs, buffer := buffer, head := head, row := row, ready := ready
  lineTimer := some 9, settleTimer := if ready then none else some 9 } }

/-- A line of the buffer. -/
def bufferLine (last : Bool) : BufferLine := { cells := [], number := some 1, last := last, double := false }

theorem printLaw_printing (state : JobState) (last ready : Bool) (head : HeadState) (row : Option DotRow)
    (h : state ≠ .queued) : PrintLaw (printing [jobIn 2 state, jobIn 3 .queued] [bufferLine last] head row ready) := by
  have hr : runningJob (printing [jobIn 2 state, jobIn 3 .queued] [bufferLine last] head row ready)
      = some (jobIn 2 state) := by
    cases state <;> first | exact absurd rfl h | rfl
  have hp : mayPrint standby = true := by decide +kernel
  refine ⟨by simp [printing, jobIn], ?_, ?_, ?_, ?_, ?_⟩
  · intro j hj
    simp only [printing, List.mem_cons, List.not_mem_nil, or_false] at hj
    rcases hj with rfl | rfl <;> simp [jobIn]
  · intro j hj
    simp only [printing, List.tail_cons, List.mem_cons, List.not_mem_nil, or_false] at hj
    subst hj; rfl
  · rw [hr]; intro e; cases e
  · rw [hr]; intro j e; cases e; simp [jobIn, printing]
  · intro _ _; exact hp

/-- Station 2 heard as a recorder with a printer and paper. -/
def withPrinter : State := setPeer 2 { Peer.empty with present := true, printer := true, paper := true } recorded

/-- A request for an event list on any printer: all times, no notes, colour as set. -/
def listRequest : List Byte := [9, 2, 0, 0, 0, 0, 0, 0, 0, 0, 255, 255, 255, 255, 0, 0, 2]

/-- Its fields. -/
def listFields : ReportRequest :=
  { kind := .eventList, event := 0, survey := 0, fromMs := 0, toMs := 4294967295, notes := false, colour := .asSet
    printer := some 2 }

/-- A composer of a report at station 2 in a state. -/
def reporting (state : ComposerState) : State := { withPrinter with composer := { withPrinter.composer with
  state := state, job := 4, printer := 2, openingTimer := some 9, finishingTimer := some 9 } }

theorem meets_AbsentStationIsForgotten :
    (reporting .queued).powered = true ∧ (2 : Station) ≠ ownStation (reporting .queued)
    ∧ (peer (reporting .queued) 2).present = true ∧ (reporting .queued).composer.state ≠ .idle
    ∧ (reporting .queued).composer.printer = 2 ∧ (reporting .queued).pins.straps.prn = true
    ∧ sameSurvey (paired .active 0 none) 2 = true ∧ (peer (paired .active 0 none) 2).present = true := by
  decide +kernel

theorem meets_ReportRequestOpensAReport :
    Asks (to1 8 listRequest) 17 withPrinter ∧ (requestOf listRequest).toOption = some listFields
    ∧ withPrinter.composer.state = .idle ∧ requestHeader withPrinter 0 = some (entry 1 .header [1])
    ∧ choosePrinter withPrinter listFields.printer = some 2 ∧ (2 : Station) ≠ ownStation withPrinter
    ∧ choosePrinter withPrinter (some 1) = some (ownStation withPrinter)
    ∧ ((requestOf ((listRequest.set 1 3).set 3 5)).toOption.map fun q => (findEvent withPrinter 1 q.event).isSome)
        = some true
    ∧ (reportChecks listRequest withPrinter).find? Prod.fst = none := by decide +kernel

/-- R131: each check fails in turn, and refuses with its reason and index. -/
theorem test_report_refusals :
    let asked := fun (i : Nat) (v : Byte) => listRequest.set (i - 1) v
    ([(asked 2 0, withPrinter), (asked 2 3, withPrinter), ((asked 7 255).set 10 0, withPrinter),
      (asked 15 2, withPrinter), (asked 16 3, withPrinter), (asked 17 8, withPrinter),
      (listRequest, reporting .queued), (asked 6 2, withPrinter), ((asked 2 3).set 3 6, withPrinter),
      (asked 17 3, withPrinter), (asked 17 255, withPrinter)].map fun x =>
        ((reportChecks x.1 x.2).find? Prod.fst).map Prod.snd)
    = [some (.badField, 2), some (.badField, 3), some (.badField, 7), some (.badField, 15), some (.badField, 16),
      some (.badField, 17), some (.busy, 0), some (.noSurvey, 0), some (.noEvent, 0), some (.noPrinter, 0), none] := by
  decide +kernel

/-- R134: the line estimate of an event list of one event. -/
theorem test_estimate :
    (match exec (.reportRequest (to1 8 listRequest)) withPrinter with
      | .next t => (t.link.queue.find? fun f => f.kind == .jobOpen).map fun f => u16At f.payload 9
      | .fault _ | .refused _ => none) = some 7 := by decide +kernel

/-- A report waiting for credit, its heading and closing line still to come, the event and the note held for it. -/
def composing : State := { reporting .waitingCredit with
  composer := { (reporting .waitingCredit).composer with
    idLimit := 5, set := [2, 3, 4].map fun n => { recId := n, gone := false, cleared := false }
    cursor := { (reporting .waitingCredit).composer.cursor with jobs := [.heading 1, .closing] } }
  store := { recorded.store with dir := recorded.store.dir.map fun e => { e with hold := e.id == 2 || e.id == 3 } } }

/-- A premise's report: its closing line is still to come, its first line is composed, its records are there or not. -/
theorem meets_ReportAdvancesWithCredit_lines :
    Reaches (to1 2 [0, 4, 16]) composing ∧ composing.composer.state ≠ .idle ∧ composing.composer.line ≤ 65535
    ∧ LineJob.closing ∈ composing.composer.cursor.jobs ∧ ReportLaw composing
    ∧ (composeJob (.heading 1) composing).2.isSome = true
    ∧ readBytes composing 4 = none ∧ (readBytes composing 2).isSome = true ∧ (readBytes composing 3).isSome = true := by
  unfold ReportLaw; decide +kernel

theorem meets_ReportAdvancesWithCredit :
    Reaches (to1 2 [0, 4, 16]) (reporting .queued) ∧ (to1 2 [0, 4, 16]).payload.length = 3
    ∧ (reporting .queued).composer.state ≠ .idle ∧ (2 : Station) = (reporting .queued).composer.printer
    ∧ u16At [0, 4, 16] 1 = (reporting .queued).composer.job ∧ u16At [0, 5, 16] 1 ≠ (reporting .queued).composer.job
    ∧ Reaches (to1 2 [0, 4, 1]) (reporting .finishing) ∧ byteAt [0, 4, 1] 3 ≤ 1
    ∧ (reporting .queued).composer.state ≠ .finishing ∧ (reporting .queued).composer.line ≤ 65535
    ∧ (reporting .opening).composer.state = .opening ∧ (reporting .finishing).composer.state = .finishing := by
  decide +kernel

/-- R144: a note missing at its second text line gives one line, its number and GONE, and no text line after it. -/
theorem test_missing_note_gives_one_line :
    (composeNoteLine 99 7 1 (reporting .sending)).2 = goneNote 7
    ∧ (composeNoteLine 99 7 1 (reporting .sending)).1.composer.cursor.jobs
      = (reporting .sending).composer.cursor.jobs := by decide +kernel

/-- R140: a note of an event list missing at its second line gives GONE in its place. -/
theorem test_missing_list_note :
    (composeListNote 99 1 (reporting .sending)).2.map (fun l => (l.cells.map LineCell.code).drop 6 |>.take 4)
      = some (codesOf "GONE") := by decide +kernel

theorem meets_ReportEndsWithItsOutcome :
    Reaches (to1 2 [0, 4, 5]) (reporting .opening) ∧ (reporting .opening).composer.state ≠ .idle
    ∧ (2 : Station) = (reporting .opening).composer.printer ∧ u16At [0, 4, 5] 1 = (reporting .opening).composer.job
    ∧ byteAt [0, 4, 5] 3 = 5 ∧ byteAt [0, 4, 1] 3 ≠ 5
    ∧ Asks (to1 8 [9]) 1 (reporting .sending) ∧ Asks (to1 8 [9]) 1 standby ∧ standby.composer.state = .idle
    ∧ (reporting .opening).composer.printer ≠ ownStation (reporting .opening)
    ∧ (reporting .opening).composer.openingTimer = some 9 ∧ (reporting .finishing).composer.finishingTimer = some 9
    ∧ (reporting .opening).powered = true := by decide +kernel

/-- A JOB_OPEN of job 4 of one line. -/
def jobOpen (sender : Station) : RxFrame := to1 sender [0, 4, 1, 0, 1, 8, 0, 1, 0, 1]

/-- A PRINT_LINE of job 4 with a number, last or not, of no cells. -/
def printLine (n : Byte) (flags : Byte) : RxFrame := to1 2 [0, 4, 0, n, flags, 0]

theorem meets_PrinterTakesJobsAndLines :
    Reaches (jobOpen 7) standby ∧ (jobOpen 7).payload.length = 10 ∧ standby.pins.straps.prn = true
    ∧ (jobOpen 7).sender.val < 8 ∧ ¬((jobOpen 8).sender.val < 8) ∧ Reaches (jobOpen 8) standby
    ∧ jobFrom standby 7 = none ∧ standby.printer.ready = false
    ∧ (printing [] [] .idle none true).printer.ready = true
    ∧ (jobFrom (printing [jobIn 2 .active] [] .idle none true) 2).isSome = true
    ∧ printLineLength (printLine 2 0).payload = true ∧ jobFrom standby 2 = none
    ∧ jobFrom (printing [jobIn 2 .active] [] .idle none true) 2 = some (jobIn 2 .active)
    ∧ runningJob (printing [jobIn 2 .active] [] .idle none true) = some (jobIn 2 .active)
    ∧ (jobIn 2 .active).number = u16At (printLine 4 1).payload 1
    ∧ (jobIn 2 .active).expected ≤ u16At (printLine 2 0).payload 3
    ∧ u16At (printLine 4 1).payload 3 < (jobIn 2 .active).expected + (jobIn 2 .active).credit
    ∧ ¬(u16At (printLine 5 1).payload 3 < (jobIn 2 .active).expected + (jobIn 2 .active).credit)
    ∧ jobFrom (printing [jobIn 2 .queued] [] (.feeding 1) (some (blankRow true)) true) 7 = none
    ∧ (jobIn 2 .queued).state = .queued ∧ (jobIn 2 .paused).state ≠ .queued := by decide +kernel

/-- R147, R187: frames of a wrong length for the Print Unit count as bad where it takes them, and are ignored from a
console and at a station not strapped PRN. -/
theorem test_print_frames_not_taken :
    let bare := { standby with pins := { standby.pins with straps := { standby.pins.straps with prn := false } } }
    ([(to1 7 [1], standby), (to1 8 [1], standby), (to1 7 [1], bare)].map fun x =>
      [Instr.jobOpen x.1, .printLine x.1, .jobCancel x.1].map fun i => match exec i x.2 with
        | .next t => (t.link.badLengths, t.link.received)
        | .fault _ | .refused _ => (9, 9))
    = [[(1, 1), (1, 1), (1, 1)], [(0, 1), (0, 1), (0, 1)], [(0, 1), (0, 1), (0, 1)]] := by decide +kernel

theorem meets_JobsEndOnCancelAndTimeout :
    Reaches (to1 2 [0, 4]) standby ∧ (to1 2 [0, 4]).payload.length = 2 ∧ jobFrom standby 2 = none
    ∧ jobFrom (printing [jobIn 2 .active] [] .idle none true) 2 = some (jobIn 2 .active)
    ∧ (jobIn 2 .active).number = u16At [0, 4] 1 ∧ (jobIn 2 .active).number ≠ u16At [0, 5] 1
    ∧ (printing [jobIn 2 .paused] [] .idle none false).printer.ready = false
    ∧ jobFrom (printing [jobIn 3 .active, jobIn 2 .queued] [] .idle none true) 2 = some (jobIn 2 .queued)
    ∧ (jobIn 3 .active) ∈ [jobIn 3 .active, jobIn 2 .queued].filter (fun x => x.origin != 2)
    ∧ (printing [jobIn 2 .active] [] .idle none true).printer.lineTimer = some 9
    ∧ activeJob (printing [jobIn 2 .active] [] .idle none true) = some (jobIn 2 .active)
    ∧ (jobIn 2 .active).origin ≠ ownStation (printing [jobIn 2 .active] [] .idle none true) := by decide +kernel

/-- The printer making row `k` of its oldest line. -/
def atRow (k : Nat) (last : Bool) : State :=
  printing [jobIn 2 .active, jobIn 3 .queued] [bufferLine last] (.printing k) (some (blankRow false)) true

/-- The same in another job state, at a printer no longer ready. -/
def atRowStopped (k : Nat) (last : Bool) (state : JobState) : State :=
  printing [jobIn 2 state, jobIn 3 .queued] [bufferLine last] (.printing k) (some (blankRow false)) false

theorem meets_HeadMakesItsRows :
    ((atRow 16 false).powered = true ∧ (atRow 16 false).printer.row = some (blankRow false)
      ∧ 16 + 1 < ((atRow 16 false).printer.buffer.head?.elim 16 fun l => if l.double then 32 else 16) + 2
      ∧ ((atRow 17 true).printer.buffer.head?.elim 16 fun l => if l.double then 32 else 16) + 2 ≤ 17 + 1
      ∧ (atRow 17 false).printer.buffer = bufferLine false :: []
      ∧ runningJob (atRow 17 true) = some (jobIn 2 .active) ∧ (atRow 17 true).printer.buffer = bufferLine true :: []
      ∧ (jobIn 2 .active).origin ≠ ownStation (atRow 17 true)
      ∧ (printing [] [] (.feeding 1) (some (blankRow true)) true).printer.head = .feeding 1
      ∧ (printing [] [] (.feeding 2) (some (blankRow true)) true).printer.row = some (blankRow true)
      ∧ activeJob (atRowStopped 0 false .paused) = none
      ∧ activeJob (atRowStopped 0 false .active) = some (jobIn 2 .active)
      ∧ runningJob (atRowStopped 17 true .paused) = some (jobIn 2 .paused)
      ∧ (printing [jobIn 2 .queued] [] (.feeding 1) (some (blankRow true)) true).printer.queue.head?
          = some (jobIn 2 .queued)
      ∧ runningJob (printing [jobIn 2 .queued] [] (.feeding 1) (some (blankRow true)) true) = none)
    ∧ (∀ last, PrintLaw (atRow 17 last)) ∧ ∀ k last, PrintLaw (atRowStopped k last .active)
    ∧ PrintLaw (atRowStopped k last .paused) :=
  ⟨by decide +kernel, fun _ => printLaw_printing _ _ _ _ _ (by decide),
    fun _ _ => ⟨printLaw_printing _ _ _ _ _ (by decide), printLaw_printing _ _ _ _ _ (by decide)⟩⟩

theorem meets_EachDotIsInOnePass :
    (bufferLine true).double = false ∧ (15 : Nat) < 16 ∧ (16 : Nat) ≤ 16 ∧ (447 : Nat) < 448
    ∧ (jobIn 2 .active).render.energy ≤ 3 ∧ (jobIn 2 .active).render.cellWidth = 8
    ∧ ({ (jobIn 2 .active).render with cellWidth := 9 } : Render).cellWidth = 9
    ∧ (jobIn 2 .active).render.isWide = false ∧ (55 : Nat) < 56 ∧ (7 : Nat) < 8
    ∧ ({ (jobIn 2 .active).render with cellWidth := 9 } : Render).isWide = true ∧ 49 * 9 ≤ 441 := by decide +kernel

theorem meets_PaperPausesAndResumesPrinting :
    (standby.powered = true ∧ activeJob standby = none ∧ standby.pins.paper = true
      ∧ ({ standby with pins := { standby.pins with paper := false } } : State).pins.paper = false
      ∧ (atRow 0 false).printer.row ≠ none
      ∧ activeJob (printing [jobIn 2 .active, jobIn 3 .queued] [bufferLine true] .idle none true)
          = some (jobIn 2 .active)
      ∧ (jobIn 2 .active).origin ≠ ownStation (atRow 0 false)
      ∧ (printing [] [] .idle none false).printer.settleTimer = some 9
      ∧ runningJob (printing [] [] (.feeding 3) none false) = none
      ∧ (printing [jobIn 2 .queued] [] .idle none false).printer.queue.head? = some (jobIn 2 .queued)
      ∧ runningJob (atRowStopped 0 false .active) = some (jobIn 2 .active)
      ∧ runningJob (printing [{ jobIn 2 .active with credit := 12 }] [bufferLine false] (.printing 0)
          (some (blankRow false)) false) = some { jobIn 2 .active with credit := 12 } ∧ 16 - (12 + 1) < 4
      ∧ runningJob (atRowStopped 3 true .paused) = some (jobIn 2 .paused))
    ∧ PrintLaw (printing [jobIn 2 .active, jobIn 3 .queued] [bufferLine true] .idle none true)
    ∧ PrintLaw (atRowStopped 3 true .paused) :=
  ⟨by decide +kernel, printLaw_printing _ _ _ _ _ (by decide), printLaw_printing _ _ _ _ _ (by decide)⟩

/-- Whether an outcome is a next state. -/
def isNext : Host.Outcome State Fault Refusal → Bool
  | .next _ => true
  | .fault _ => false
  | .refused _ => false

/-! Supply, and the laws. -/

theorem meets_SupplyPassesThroughItsStates :
    ((supplied .holdup).powered = true ∧ (supplied .holdup).supply.state ≠ .normal
      ∧ (supplied .normal).supply.state = .normal ∧ (supplied .holdup).supply.holdUpTimer = some 400000
      ∧ (supplied .safe).supply.state = .safe ∧ (supplied .safe).survey.running = true
      ∧ (supplied .safe).harmonic.interval = none
      ∧ ({ supplied .safe with survey := standby.survey } : State).survey.running = false
      ∧ (atRow 0 false).supply.state = .normal ∧ (atRow 0 false).printer.row ≠ none
      ∧ ({ capturing with supply := (supplied .holdup).supply } : State).supply.holdUpTimer = some 400000
      ∧ ({ detecting .settle 0 with supply := (supplied .holdup).supply } : State).detector.event
          = .recorded (EventWork.opening Settings.default (window 899 true) 2 5 1 false))
    ∧ StoreLaw (supplied .safe) ∧ StoreLaw capturing ∧ SlotsApart capturing ∧ DescriptorLaw capturing
    ∧ ParentLaw capturing :=
  ⟨by decide +kernel, storeLaw_recorded, storeLaw_capturing, slotsApart_capturing, parents_capturing⟩

/-- The recorded survey in HOLDUP, its timer running out, two captures and an interval open and the marker WRITING. -/
def expiring : State := { capturing with
  supply := (supplied .holdup).supply, store := { capturing.store with writing := true }
  harmonic := { capturing.harmonic with interval := some (newInterval Settings.default 0 0 true) } }

theorem meets_SupplyPassesThroughItsStates_cut :
    (expiring.powered = true ∧ expiring.supply.holdUpTimer = some 400000 ∧ 11 ≤ expiring.store.freeCount)
    ∧ StoreLaw expiring ∧ SlotsApart expiring ∧ DescriptorLaw expiring ∧ ParentLaw expiring :=
  ⟨by decide +kernel, storeLaw_capturing, slotsApart_capturing, parents_capturing⟩

/-- R182: a cut within the SAFE procedure, after so many of its steps: the slots and the interval still open, the marker,
and the header's last-safe bytes. -/
theorem test_cut_within_safe_procedure :
    ((List.finRange 6).map fun made => match exec (.supplyCut (.inSafeProcedure made)) expiring with
      | .next t => ((t.capture.slots.toList.filter Option.isSome).length, t.harmonic.interval.isSome, t.store.writing,
          byteAt (recordBytes t (entry 1 .header [1])) 11, t.supply.state == .holdup)
      | .fault _ | .refused _ => (9, false, false, 0, false))
    = [(3, true, true, 0, true), (3, true, true, 0, true), (0, true, true, 0, true), (0, false, true, 0, true),
      (0, false, true, 1, true), (0, false, false, 1, true)] := by decide +kernel

/-- R182: a DISCARD of a companion that step 2 has closed is taken between steps 2 and 3, one that arrives before step 2
finds it OPEN, and one that arrives after step 6 is refused SAFE: what is left, and the answer's reason. -/
theorem test_discard_within_safe_procedure :
    let discard := to1 8 [9, 0, 7]
    let reason := fun t : State => (t.link.queue.filter fun g => g.kind == .answer).map fun g => byteAt g.payload 4
    ([([⟨2, .discard, discard⟩], []), ([⟨1, .discard, discard⟩], []), ([], [Instr.discard discard])].map
      fun (x : List SafeFrame × List Instr) =>
        match (x.2.foldl (fun o i => andThen o (exec i)) (exec (.holdUpTimer x.1) expiring)) with
        | .next t => ((findEntry t 7).isSome, reason t, t.supply.state == .safe)
        | .fault _ | .refused _ => (false, [], false))
    = [(false, [0], true), (true, [17], true), (true, [7], true)] := by decide +kernel

/-- R54, R98, R182: a SURVEY_START taken between steps 5 and 6 leaves the marker WRITING in SAFE; the same frame after
the procedure is refused. -/
theorem test_start_within_safe_procedure :
    let start := to1 8 [9, 0, 7, 0, 0, 0, 1, 0]
    let waiting := { standby with supply := expiring.supply }
    ([exec (.holdUpTimer [⟨5, .surveyStart, start⟩]) waiting,
        andThen (exec .holdUpTimer waiting) (exec (.surveyStart start))].map fun
      | .next t => (t.survey.running, t.store.writing, t.supply.state == .safe)
      | .fault _ | .refused _ => (false, false, false))
    = [(true, true, true), (false, false, true)] := by decide +kernel

/-- R182, R185: after a cut behind step 1, the restart at the rise of the supply finds the marker WRITING and repairs
what is open: the capture of a written cycle stays, the one that has not begun goes. -/
theorem test_restart_repairs_after_cut :
    (match exec (.supplyCut (.inSafeProcedure 1)) expiring with
      | .next t => match exec (.restart .supplyRise false t.pins.straps) t with
        | .next u => u.store.dir.map fun e => (e.id, e.open_)
        | .fault _ | .refused _ => []
      | .fault _ | .refused _ => [])
    = [(1, false), (2, false), (3, false), (4, false), (5, false), (6, false), (7, false)] := by decide +kernel

/-- The survey header's rewrites: a store that keeps its laws, waveforms with descriptors in it, a header that reads
RUNNING and one that does not. -/
theorem meets_headerRewrites :
    (StoreLaw capturing ∧ DescriptorLaw capturing ∧ ParentLaw capturing)
    ∧ lastHeader capturing = some (entry 1 .header [1])
    ∧ byteAt (recordBytes capturing (entry 1 .header [1])) 9 = 0
    ∧ lastHeader endedSurvey = some (entry 1 .header [1])
    ∧ byteAt (recordBytes endedSurvey (entry 1 .header [1])) 9 ≠ 0
    ∧ lastHeader (supplied .safe) = some (entry 1 .header [1]) :=
  ⟨⟨storeLaw_capturing, parents_capturing⟩, by decide +kernel⟩

/-- The station in STANDBY with all 4096 blocks free. -/
def emptied : State := { standby with store := Store.cleared }

theorem storeLaw_emptied : StoreLaw emptied ∧ StoreTotal emptied := by
  refine ⟨⟨by decide +kernel, ?_, fun b h => ?_, ?_, ?_, by decide +kernel, by decide +kernel⟩, fun b h => ?_⟩
  · simpa [emptied, Store.cleared] using List.nodup_range'
  · simpa [emptied, Store.cleared, List.mem_range'] using h
  · simp [emptied, Store.cleared]
  · simp [emptied, Store.cleared]
  · simp [emptied, Store.cleared, List.mem_range', h]

/-- The slots of the capturing survey keep their law, its event being none. -/
theorem slotLaw_capturing : SlotLaw capturing :=
  ⟨slotsApart_capturing, by decide +kernel, fun _ h => by cases h⟩

theorem meets_StoreLawIsKept :
    SlotLaw capturing ∧ (StoreLaw emptied ∧ StoreTotal emptied) ∧ (DescriptorLaw capturing ∧ ParentLaw capturing)
    ∧ MemoryForm recorded ∧ StoreLaw capturing ∧ StandbyLaw capturing ∧ StandbyLaw emptied
    ∧ [recorded, capturing, emptied].all (fun s => isNext (step s)) = true :=
  ⟨slotLaw_capturing, storeLaw_emptied, parents_capturing, by unfold MemoryForm; decide +kernel, storeLaw_capturing,
    by unfold StandbyLaw; decide +kernel, by unfold StandbyLaw; decide +kernel, by decide +kernel⟩

theorem meets_QueueLawIsKept : QueueLaw (withQueue fullQueue) ∧ isNext (step (withQueue fullQueue)) = true := by
  unfold QueueLaw; decide +kernel

theorem meets_ScheduleLawIsKept : ScheduleLaw running ∧ isNext (step running) = true := by
  have r : RingBefore running running.sampling.cycle := fun k x h => absurd h (by simp [running, standby, State.reset, Capture.restarted])
  unfold ScheduleLaw isPeriod
  have e : running.sampling.assembled ++ running.sampling.history = [] ∧ running.sampling.heldSet = none := by
    decide +kernel
  refine ⟨?_, by decide +kernel⟩
  rw [e.1, e.2]
  and_intros <;> first | exact r | decide +kernel | (intro x h; cases h)

theorem meets_NotesLawIsKept : NotesLaw nested ∧ isNext (step nested) = true := by unfold NotesLaw; decide +kernel

/-- Formings that leave the positions as they were, and that take one out with its agreement: in STANDBY, while the send
limit runs, and after it. -/
theorem meets_OffersLawIsKept_forming :
    let short := fun (now : Nat) (run : Bool) =>
      let s := paired .active 0 none
      { s with now := now, store := { s.store with freeCount := 60 }, survey := { s.survey with running := run } }
    ([serving true, short 0 false, short 999 true, short 1000 true].map fun s =>
      (decide (positions (openOffers s) = positions s.agreement.list), s.survey.running && !s.link.silent,
        decide (∃ d, s.agreement.sendLimit = some d ∧ s.now < d)))
      = [(true, true, true), (false, false, true), (false, true, true), (false, true, false)]
    ∧ (peer (short 0 true) (ownStation (short 0 true))).provider = none
    ∧ (peer (short 0 true) 2).provider.isSome = true ∧ (short 0 true).agreement.revision ≤ 65535
    ∧ (((formOffers (short 1000 true)).link.queue.take 2).map fun g => (g.kind, g.payload.take 5))
      = [(.agreeEnd, [1, 0, 1]), (.offers, [0, 7, 0, 2, 0])] := by decide +kernel

theorem meets_OffersLawIsKept : OffersLaw (serving true) ∧ isNext (step (serving true)) = true := by
  refine ⟨⟨by decide +kernel, ?_⟩, by decide +kernel⟩
  intro st p h
  have e : ∀ st, (peer (serving true) st).provider = none := by decide +kernel
  rw [e] at h; cases h

theorem meets_PrintLawIsKept :
    SupplyLaw (atRow 0 false) ∧ PrintLaw (atRow 0 false) ∧ isNext (step (atRow 0 false)) = true
    ∧ ReportLaw composing ∧ isNext (step composing) = true :=
  ⟨by unfold SupplyLaw; decide +kernel, printLaw_printing _ _ _ _ _ (by decide), by decide +kernel,
    by unfold ReportLaw; decide +kernel, by decide +kernel⟩

/-- The recorded survey with the marker as it reads while the supply is NORMAL. -/
def marked : State := { recorded with store := { recorded.store with writing := true } }

theorem meets_SupplyLawIsKept : SupplyLaw marked ∧ isNext (step marked) = true := by
  unfold SupplyLaw; decide +kernel

theorem meets_SupplyLawIsKept_safe :
    let s := { expiring with pending := [.holdUpTimer [⟨2, .discard, to1 8 [9, 0, 7]⟩]] }
    SupplyLaw s ∧ SafeLaw s ∧ isNext (step s) = true
    ∧ ∀ x ∈ [(⟨2, .discard, to1 8 [9, 0, 7]⟩ : SafeFrame)], x.kind ≠ .triggerNotice ∧ x.kind ≠ .surveyStart := by
  unfold SupplyLaw SafeLaw; decide +kernel

end Sys2Proof.Tests
end

/-! ## The window RMS unit: RMS code and residual of a window (R14, R15) -/

namespace Sys2Proof.Machine

/-- The square of a code is at most the square of the largest. -/
theorem isCode.natAbs_sq_le {x : Int} (h : isCode x) : x.natAbs * x.natAbs ≤ 32767 * 32767 := by
  unfold isCode at h
  exact Nat.mul_self_le_mul_self (by omega)

/-- The sum of the squares of 64 codes is at most 64 times the largest square (R14). -/
theorem sum_squares_le {l : List Int} (hl : l.length = 64) (hc : ∀ x ∈ l, isCode x) :
    (l.map fun x => x.natAbs * x.natAbs).sum ≤ 68715282496 := by
  have bound : ∀ y ∈ l.map (fun x => x.natAbs * x.natAbs), y ≤ 32767 * 32767 := by
    intro y hy
    obtain ⟨x, hx, rfl⟩ := List.mem_map.1 hy
    exact (hc x hx).natAbs_sq_le
  simpa [hl] using List.sum_le_card_nsmul _ _ bound

/-- The root of a number no larger than the largest square of a code is itself a code's magnitude. -/
theorem isqrt_le_of_le_sq {n : Nat} (h : n ≤ 32767 * 32767) : isqrt n ≤ 32767 := by
  rw [isqrt_eq_sqrt, ← Nat.sqrt_eq 32767]
  exact Nat.sqrt_le_sqrt h

/-- Where the mean square does not pass the largest square, the bound of 32767 does not bite (R14). -/
theorem rmsOf_eq_isqrt {l : List Int} (h : (l.map fun x => x.natAbs * x.natAbs).sum / 64 ≤ 32767 * 32767) :
    rmsOf l = isqrt ((l.map fun x => x.natAbs * x.natAbs).sum / 64) := by
  rw [rmsOf, total_eq_sum]
  exact Nat.min_eq_right (isqrt_le_of_le_sq h)

/-- The RMS code of a channel is that of the codes held for it, in a window of either kind (R14). -/
theorem windowResult_rms (s : State) (kind : WindowKind) (ch : Channel) :
    (windowResult kind s).rms.get ch = rmsOf (s.sampling.history.map fun x => x.codes.get ch) := by
  cases ch <;> rfl

/-- The residual of a channel is formed from its RMS code (R15). -/
theorem windowResult_residual (s : State) (kind : WindowKind) (ch : Channel) :
    (windowResult kind s).residual.get ch
      = residualOf s.survey.settings.declared ((windowResult kind s).rms.get ch) := by
  cases ch <;> rfl

/-- With the lowest declared voltage every RMS code of 2000 or more gives the capped residual (R15). -/
theorem residualOf_lowest_declared {rms : Nat} (h : 2000 ≤ rms) : residualOf 1000 rms = 2000 := by
  rw [residualOf, Nat.mul_div_cancel_left rms (by decide : 0 < 1000)]
  exact Nat.min_eq_left h

end Sys2Proof.Machine

section
open Sys2Proof Sys2Proof.Machine

/-- Settles O13: the bound on the sum of squares keeps the mean at 32767² or below, so the RMS code is the root itself. -/
theorem rmsAndResidualOfAWindow : Obligations.RmsAndResidualOfAWindow := by
  unfold Obligations.RmsAndResidualOfAWindow
  refine ⟨⟨fun l hl hc => ?_, windowResult_rms⟩, windowResult_residual, fun _ => residualOf_lowest_declared,
    by decide⟩
  have hsum := sum_squares_le hl hc
  have hmean : (l.map fun x => x.natAbs * x.natAbs).sum / 64 ≤ 32767 * 32767 := by omega
  rw [rmsOf_eq_isqrt hmean]
  obtain ⟨lo, hi⟩ := isqrt_spec ((l.map fun x => x.natAbs * x.natAbs).sum / 64)
  exact ⟨hsum, by decide, lo, hi, isqrt_le_of_le_sq hmean⟩

end

/-! ## What recording a window or a cycle leaves unchanged

The Sag Detector, the Capture Engine, the Harmonic Unit and the Record Store take windows and cycles from the Sample
Port; nothing they do reaches back to the strobe schedule, the clocks, the survey or the supply. -/

namespace Sys2Proof.Machine

/-- Two states that differ only in the recording blocks (detector, captures, harmonics, store) and in what an
open-offer list formed on the way changes (agreements, peers, link). -/
def SameButRecording (t s : State) : Prop :=
  t = { s with
    detector := t.detector, capture := t.capture, harmonic := t.harmonic, store := t.store
    agreement := t.agreement, peers := t.peers, link := t.link }

theorem SameButRecording.refl (s : State) : SameButRecording s s := rfl

theorem SameButRecording.trans {u t s : State} (h : SameButRecording u t) (k : SameButRecording t s) :
    SameButRecording u s := by
  unfold SameButRecording at *
  rw [h, k]

theorem SameButRecording.sampling {t s : State} (h : SameButRecording t s) : t.sampling = s.sampling := by
  rw [h]

theorem SameButRecording.powered {t s : State} (h : SameButRecording t s) : t.powered = s.powered := by
  rw [h]

theorem SameButOffers.sameButRecording {t s : State} (h : SameButOffers t s) : SameButRecording t s := by
  unfold SameButOffers at h
  unfold SameButRecording
  rw [h]

/-- A fold of steps that each touch the recording blocks alone touches them alone. -/
theorem foldl_sameButRecording {α : Type} {f : State → α → State} (hf : ∀ s a, SameButRecording (f s a) s)
    (l : List α) (s : State) : SameButRecording (l.foldl f s) s := by
  induction l generalizing s with
  | nil => exact .refl s
  | cons a l ih => exact (ih _).trans (hf s a)

/-! ### The Record Store -/

theorem writeRecord_sameButRecording (id : Nat) (bytes : List Byte) (s : State) :
    SameButRecording (writeRecord id bytes s) s := by
  obtain ⟨m, h, -⟩ := writeRecord_spec id bytes s
  rw [h]; rfl

theorem rewriteField_sameButRecording (id i : Nat) (bytes : List Byte) (s : State) :
    SameButRecording (rewriteField id i bytes s) s := by
  obtain ⟨m, h, -⟩ := rewriteField_spec id i bytes s
  rw [h]; rfl

theorem setCapture_sameButRecording (p : Nat) (start : Bool) (st : CaptureStatus) (w : Option Nat) (s : State) :
    SameButRecording (setCapture p start st w s) s := by
  obtain ⟨m, h, -⟩ := setCapture_spec p start st w s
  rw [h]; rfl

theorem freeBlocks_sameButRecording (blocks : List Nat) (s : State) : SameButRecording (freeBlocks blocks s) s :=
  (formOffers_sameButOffers _).sameButRecording.trans rfl

theorem releaseRecord_sameButRecording (id : Nat) (s : State) : SameButRecording (releaseRecord id s) s := by
  unfold releaseRecord
  split
  · exact .refl s
  · exact (freeBlocks_sameButRecording ..).trans rfl

theorem shrinkRecord_sameButRecording (id : Nat) (keep release : List Nat) (s : State) :
    SameButRecording (shrinkRecord id keep release s) s :=
  (freeBlocks_sameButRecording ..).trans rfl

theorem parentShed_sameButRecording (e : Entry) (s : State) : SameButRecording (parentShed e s) s := by
  unfold parentShed
  split
  · exact .refl s
  · split
    · exact setCapture_sameButRecording ..
    · split
      · exact setCapture_sameButRecording ..
      · exact .refl s

theorem shedRecord_sameButRecording (e : Entry) (s : State) : SameButRecording (shedRecord e s) s :=
  (parentShed_sameButRecording ..).trans (.trans rfl (releaseRecord_sameButRecording e.id s))

theorem shedUntil_sameButRecording (a : Asker) (n : Nat) (l : List Entry) (s : State) :
    SameButRecording (shedUntil a n l s) s := by
  induction l generalizing s with
  | nil => exact .refl s
  | cons e es ih =>
    unfold shedUntil
    split
    · exact .refl s
    · exact (ih _).trans (shedRecord_sameButRecording e s)

theorem makeRecord_sameButRecording (n : Nat) (e : Entry) (s : State) : SameButRecording (makeRecord n e s).1 s :=
  (formOffers_sameButOffers _).sameButRecording.trans rfl

/-- An allocation, whatever its answer, touches the recording blocks alone. -/
theorem allocate_sameButRecording {a : Asker} {n : Nat} {e : Entry} {s t : State} {g : Grant}
    (h : allocate a n e s = (t, g)) : SameButRecording t s := by
  obtain rfl : (allocate a n e s).1 = t := by rw [h]
  rcases allocate_cases a n e s with ⟨e', -⟩ | ⟨-, u, hu, hc⟩
  · rw [e']; rfl
  · have shed : SameButRecording u s := by
      rcases hu with rfl | rfl
      · exact .refl u
      · exact shedUntil_sameButRecording ..
    rcases hc with e' | ⟨e', -⟩ | ⟨e', -⟩ | ⟨e', -⟩ <;> rw [e']
    · exact SameButRecording.trans rfl shed
    · exact shed
    · exact (makeRecord_sameButRecording ..).trans shed
    · exact (makeRecord_sameButRecording ..).trans shed

/-! ### The Capture Engine -/

theorem writeCycle_sameButRecording (c : CompletedCycle) (i : Fin 4) (s : State) :
    SameButRecording (writeCycle c i s) s := by
  unfold writeCycle
  split
  · exact .refl s
  · split
    · dsimp only
      split <;> rfl
    · exact .refl s

theorem cutRecord_sameButRecording (id : Nat) (d : Descriptor) (parent : Option Nat) (start : Bool)
    (cause : ShortCause) (s : State) : SameButRecording (cutRecord id d parent start cause s) s := by
  unfold cutRecord
  dsimp only
  split
  · split
    · exact (setCapture_sameButRecording ..).trans (releaseRecord_sameButRecording ..)
    · exact releaseRecord_sameButRecording ..
  · split
    · exact (setCapture_sameButRecording ..).trans (.trans rfl (shrinkRecord_sameButRecording ..))
    · exact .trans rfl (shrinkRecord_sameButRecording ..)

theorem closeShort_sameButRecording (cause : ShortCause) (s : State) (i : Fin 4) :
    SameButRecording (closeShort cause s i) s := by
  unfold closeShort
  split
  · exact .refl s
  · dsimp only
    split
    · rfl
    · exact (cutRecord_sameButRecording ..).trans rfl

theorem openSlot_sameButRecording (i : Fin 4) (p : CapturePlan) (recId blocks : Nat) (s : State) :
    SameButRecording (openSlot i p recId blocks s) s :=
  (foldl_sameButRecording (fun s c => writeCycle_sameButRecording c i s) ..).trans rfl

theorem ownSlot_sameButRecording {s t : State} {i : Fin 4} (h : ownSlot s = some (i, t)) : SameButRecording t s := by
  unfold ownSlot at h
  split at h
  · obtain ⟨-, rfl⟩ := Prod.mk.inj (Option.some.inj h)
    rfl
  · split at h
    · cases h
    · obtain ⟨-, rfl⟩ := Prod.mk.inj (Option.some.inj h)
      exact SameButRecording.trans rfl (closeShort_sameButRecording ..)

theorem ownCapture_sameButRecording (kind : SlotKind) (c0 pre post : Nat) (event : LatestEvent) (s : State) :
    SameButRecording (ownCapture kind c0 pre post event s).1 s := by
  unfold ownCapture
  split
  · rfl
  · have slotTaken := ownSlot_sameButRecording ‹_›
    lift_lets
    intro taken plan
    split
    · exact slotTaken
    · split
      · exact (openSlot_sameButRecording ..).trans ((allocate_sameButRecording ‹_›).trans slotTaken)
      · exact (allocate_sameButRecording ‹_›).trans slotTaken

theorem endCapture_sameButRecording (recovery : Nat) (event : LatestEvent) (s : State) :
    SameButRecording (endCapture recovery event s).1 s :=
  (setCapture_sameButRecording ..).trans (ownCapture_sameButRecording ..)

theorem captureCycle_sameButRecording (c : CompletedCycle) (s : State) : SameButRecording (captureCycle c s) s :=
  .trans rfl (foldl_sameButRecording (fun s i => writeCycle_sameButRecording c i s) ..)

/-! ### The Sag Detector -/

theorem queueNotice_sameButRecording (number : Nat) (w : WindowResult) (s : State) :
    SameButRecording (queueNotice number w s).1 s := by
  unfold queueNotice
  split <;> rfl

theorem openRecorded_sameButRecording (w : WindowResult) (resumed : Bool) (recId : Nat) (s : State) :
    SameButRecording (openRecorded w resumed recId s) s := by
  unfold openRecorded startCapture
  dsimp only
  exact .trans rfl ((rewriteField_sameButRecording ..).trans ((queueNotice_sameButRecording ..).trans
    ((writeRecord_sameButRecording ..).trans ((ownCapture_sameButRecording ..).trans rfl))))

theorem openEvent_sameButRecording (w : WindowResult) (s : State) : SameButRecording (openEvent w s) s := by
  unfold openEvent
  dsimp only
  split
  · exact (openRecorded_sameButRecording ..).trans ((allocate_sameButRecording ‹_›).trans (by exact rfl))
  · exact .trans rfl ((allocate_sameButRecording ‹_›).trans (by exact rfl))

theorem quietWindow_sameButRecording (w : WindowResult) (s : State) : SameButRecording (quietWindow w s).1 s := by
  unfold quietWindow
  split
  · exact openEvent_sameButRecording w s
  · exact .refl s

theorem completeRecord_sameButRecording (s : State) : SameButRecording (completeRecord s) s := by
  unfold completeRecord
  split
  · exact .trans rfl (writeRecord_sameButRecording ..)
  · exact .refl s

theorem closeEvent_sameButRecording (next : DetectorState) (s : State) : SameButRecording (closeEvent next s) s :=
  .trans rfl (completeRecord_sameButRecording s)

theorem considerEndCapture_sameButRecording (w : WindowResult) (s : State) :
    SameButRecording (considerEndCapture w s) s := by
  unfold considerEndCapture
  split
  · split
    · exact .refl s
    · exact .trans rfl (endCapture_sameButRecording ..)
  · exact .refl s

theorem recoveryWindow_sameButRecording (w : WindowResult) (s : State) : SameButRecording (recoveryWindow w s) s := by
  have considered (u : State) (h : SameButRecording u s) : SameButRecording (considerEndCapture w u) s :=
    (considerEndCapture_sameButRecording w u).trans h
  unfold recoveryWindow
  dsimp only
  split
  · exact (closeEvent_sameButRecording ..).trans (considered _ rfl)
  · exact .trans rfl (considered _ rfl)

theorem eventWindow_sameButRecording (w : WindowResult) (s : State) : SameButRecording (eventWindow w s).1 s := by
  unfold eventWindow
  dsimp only
  split
  · rfl
  · split
    · exact recoveryWindow_sameButRecording w s
    · rfl

theorem settleWindow_sameButRecording (w : WindowResult) (s : State) : SameButRecording (settleWindow w s) s := by
  unfold settleWindow
  dsimp only
  split
  · exact (closeEvent_sameButRecording ..).trans rfl
  · rfl

theorem settlingWindow_sameButRecording (w : WindowResult) (s : State) :
    SameButRecording (settlingWindow w s).1 s := by
  unfold settlingWindow
  split
  · rfl
  · split
    · rfl
    · exact settleWindow_sameButRecording w s

/-- The detector, in each of its states, takes a window within the recording blocks. -/
theorem detectorWindow_sameButRecording (w : WindowResult) (s : State) :
    SameButRecording (detectorWindow w s).1 s := by
  unfold detectorWindow
  split
  · split
    · exact (quietWindow_sameButRecording ..).trans rfl
    · exact .refl s
  · exact quietWindow_sameButRecording w s
  · exact eventWindow_sameButRecording w s
  · exact settlingWindow_sameButRecording w s

/-! ### The Harmonic Unit -/

theorem closeInterval_sameButRecording (endMs : Nat) (short : Bool) (s : State) :
    SameButRecording (closeInterval endMs short s) s := by
  unfold closeInterval
  split
  · exact .refl s
  · dsimp only
    split
    · have allocated := allocate_sameButRecording ‹_›
      exact .trans rfl ((writeRecord_sameButRecording ..).trans (allocated.trans rfl))
    · exact .trans rfl ((allocate_sameButRecording ‹_›).trans (by exact rfl))

theorem crossBoundary_sameButRecording (endMs : Nat) (s : State) : SameButRecording (crossBoundary endMs s) s := by
  unfold crossBoundary
  split
  · exact .refl s
  · split
    · exact .trans rfl (closeInterval_sameButRecording ..)
    · exact .refl s

theorem keepMark_sameButRecording (kind : WindowKind) (m : EventMark) (s : State) :
    SameButRecording (keepMark kind m s) s := by
  cases kind <;> rfl

theorem harmonicWindow_sameButRecording (w : WindowResult) (m : EventMark) (s : State) :
    SameButRecording (harmonicWindow w m s) s := by
  have crossed := (crossBoundary_sameButRecording w.endMs _).trans (keepMark_sameButRecording w.kind m s)
  unfold harmonicWindow
  dsimp only
  split
  · exact keepMark_sameButRecording ..
  · split
    · exact crossed
    · exact .trans rfl crossed

theorem harmonicCycle_sameButRecording (c : CompletedCycle) (s : State) : SameButRecording (harmonicCycle c s) s := by
  unfold harmonicCycle
  dsimp only
  split
  · rfl
  · split <;> rfl

/-! ### The hand-over of windows and cycles (R6, R16) -/

/-- A window handed over is numbered as the latest, and recorded. -/
theorem handWindow_sameButRecording (w : WindowResult) (s : State) :
    SameButRecording (handWindow w s) { s with sampling := { s.sampling with latestWindow := w.number } } :=
  (harmonicWindow_sameButRecording ..).trans (detectorWindow_sameButRecording ..)

/-- A cycle handed over makes room for the next one, and is recorded. -/
theorem handCycle_sameButRecording (s : State) :
    SameButRecording (handCycle s) { s with sampling := { s.sampling with assembled := [] } } :=
  (harmonicCycle_sameButRecording ..).trans (captureCycle_sameButRecording ..)

end Sys2Proof.Machine

/-! ## The Sample Port: what settling a set and starting a cycle do (R1 to R6, R11, R18) -/

namespace Sys2Proof.Machine

/-- A code is taken as R1 says. -/
theorem takenCode_eq (v : BitVec 16) : takenCode v = codeTaken v := by
  unfold takenCode codeTaken
  split
  · next h => rw [h]; decide
  · next h =>
    have lowest : v.toInt ≠ -32768 := fun e => h (BitVec.eq_of_toInt_eq (by rw [e]; decide))
    have range := BitVec.le_toInt v
    omega

/-! ### What the Cycle Clock and the windows change of the Sample Port's state -/

/-- Two sampling states that differ only in what the Cycle Clock tracks and in the number of the latest window. -/
def Sampling.SameButTracking (d c : Sampling) : Prop :=
  d = { c with
    period := d.period, accepted := d.accepted, freeRunCount := d.freeRunCount, reference := d.reference
    armed := d.armed, lastRef := d.lastRef, anchor := d.anchor, latestWindow := d.latestWindow }

namespace Sampling

theorem SameButTracking.refl (c : Sampling) : SameButTracking c c := rfl

theorem SameButTracking.trans {e d c : Sampling} (h : SameButTracking e d) (k : SameButTracking d c) :
    SameButTracking e c := by
  unfold SameButTracking at *
  rw [h, k]

theorem measure_sameButTracking (c : Sampling) (tick : Nat) : SameButTracking (c.measure tick) c := by
  unfold measure
  split
  · rfl
  · split <;> rfl

theorem cross_sameButTracking (c : Sampling) (a b : RefSample) : SameButTracking (c.cross a b) c := by
  unfold cross
  dsimp only
  split
  · rfl
  · exact (measure_sameButTracking ..).trans rfl

theorem seeRef_sameButTracking (declared : Nat) (b : RefSample) (c : Sampling) :
    SameButTracking (c.seeRef declared b) c := by
  unfold seeRef
  dsimp only
  split
  · split
    · exact .trans rfl (cross_sameButTracking ..)
    · rfl
  · rfl

theorem track_sameButTracking (declared : Nat) (x : SampleSet) (c : Sampling) :
    SameButTracking (c.track declared x) c := by
  unfold track
  split
  · exact .refl c
  · exact seeRef_sameButTracking ..

theorem review_sameButTracking (declared : Nat) (w : WindowResult) (c : Sampling) :
    SameButTracking (c.review declared w) c := by
  unfold review
  split
  · exact .refl c
  · split
    · exact .refl c
    · rfl

theorem freeRunStep_sameButTracking (nominal : Nat) (c : Sampling) :
    SameButTracking (freeRunStep nominal c) c := by
  have dropped (p : Prop) [Decidable p] : SameButTracking (if p then c.dropHistory else c) c := by
    split <;> rfl
  exact .trans rfl (dropped _)

end Sampling

/-- The evaluation of a window leaves the strobe schedule, the held sets and the counters of the port as they are. -/
theorem evaluateWindow_sampling (kind : WindowKind) (s : State) :
    (evaluateWindow kind s).sampling.SameButTracking s.sampling := by
  unfold evaluateWindow
  split
  · exact .refl _
  · cases kind with
    | mid => dsimp only; rw [(handWindow_sameButRecording ..).sampling]; rfl
    | end_ =>
      dsimp only
      rw [(handWindow_sameButRecording ..).sampling]
      exact .trans rfl (Sampling.review_sameButTracking s.survey.settings.declared (windowResult .end_ s) s.sampling)

theorem evaluateWindow_powered (kind : WindowKind) (s : State) : (evaluateWindow kind s).powered = s.powered := by
  unfold evaluateWindow
  split
  · rfl
  · cases kind <;> exact (handWindow_sameButRecording ..).powered

/-! ### A set is settled (R4) -/

/-- The sampling state once a set is settled, apart from the tracking and the cycle being assembled: the strobe is
answered, the set is held and heads the window history. -/
def Sampling.answered (x : SampleSet) (c : Sampling) : Sampling :=
  { c with outstanding := false, heldSet := some x.codes, history := (x :: c.history).take 64 }

theorem placeSet_sampling (x : SampleSet) (s : State) :
    (placeSet x s).sampling.SameButTracking
      { s.sampling.answered x with assembled := x :: s.sampling.assembled } := by
  have tracked := Sampling.track_sameButTracking s.survey.settings.declared x s.sampling
  unfold Sampling.SameButTracking at tracked ⊢
  unfold placeSet
  dsimp only
  rw [tracked]
  rfl

/-- A settled set answers its strobe at every position; the windows and the cycle it completes change nothing else of
the port. -/
theorem settle_sampling (x : SampleSet) (s : State) :
    ∃ l, (settle x s).sampling.SameButTracking { s.sampling.answered x with assembled := l } := by
  have placed := placeSet_sampling x s
  unfold settle
  dsimp only
  split
  · exact ⟨_, (evaluateWindow_sampling ..).trans placed⟩
  · split
    · refine ⟨[], ?_⟩
      have evaluated := (evaluateWindow_sampling .end_ (placeSet x s)).trans placed
      rw [(handCycle_sameButRecording _).sampling]
      unfold Sampling.SameButTracking at evaluated ⊢
      rw [evaluated]
    · exact ⟨_, placed⟩

@[simp] theorem settle_powered (x : SampleSet) (s : State) : (settle x s).powered = s.powered := by
  unfold settle
  dsimp only
  split
  · exact evaluateWindow_powered ..
  · split
    · exact (handCycle_sameButRecording _).powered.trans (evaluateWindow_powered ..)
    · rfl

section
variable (x : SampleSet) (s : State)

@[simp] theorem settle_outstanding : (settle x s).sampling.outstanding = false := by
  obtain ⟨l, h⟩ := settle_sampling x s
  rw [h]; rfl

@[simp] theorem settle_heldSet : (settle x s).sampling.heldSet = some x.codes := by
  obtain ⟨l, h⟩ := settle_sampling x s
  rw [h]; rfl

@[simp] theorem settle_history : (settle x s).sampling.history = (x :: s.sampling.history).take 64 := by
  obtain ⟨l, h⟩ := settle_sampling x s
  rw [h]; rfl

@[simp] theorem settle_patchedSets : (settle x s).sampling.patchedSets = s.sampling.patchedSets := by
  obtain ⟨l, h⟩ := settle_sampling x s
  rw [h]; rfl

@[simp] theorem settle_lateSets : (settle x s).sampling.lateSets = s.sampling.lateSets := by
  obtain ⟨l, h⟩ := settle_sampling x s
  rw [h]; rfl

@[simp] theorem settle_firstCyclePending :
    (settle x s).sampling.firstCyclePending = s.sampling.firstCyclePending := by
  obtain ⟨l, h⟩ := settle_sampling x s
  rw [h]; rfl

end

/-! ### SAMPLE_SET_ARRIVAL (R1, R2) -/

/-- The set of an arrival, its codes taken as R1 says. -/
def arrivedSet (v1 v2 v3 : BitVec 16) (o : Bool) : SampleSet :=
  { codes := ⟨codeTaken v1, codeTaken v2, codeTaken v3⟩, patched := false, overrange := o }

/-- An arrival on an outstanding strobe settles its set. -/
theorem exec_arrival_outstanding {s : State} (hp : s.powered = true) (ho : s.sampling.outstanding = true)
    (v1 v2 v3 : BitVec 16) (o : Bool) :
    exec (.sampleSetArrival v1 v2 v3 o) s = .next (settle (arrivedSet v1 v2 v3 o) s) := by
  simp [exec, execSampleSetArrival, whileRunning, arrivedSet, takenCode_eq, hp, ho]

/-- An arrival with no strobe outstanding is counted and has no other effect (R2). -/
theorem exec_arrival_late {s : State} (hp : s.powered = true) (ho : s.sampling.outstanding = false)
    (v1 v2 v3 : BitVec 16) (o : Bool) :
    exec (.sampleSetArrival v1 v2 v3 o) s = .next { s with
      sampling := { s.sampling with lateSets := min 65535 (s.sampling.lateSets + 1) } } := by
  simp [exec, execSampleSetArrival, whileRunning, raise16, hp, ho]

/-! ### STROBE_DUE (R3, R5) -/

/-- A survey's first cycle start, whether or not it opens an interval, empties the history and the counters and leaves
the rest of the port (R18). -/
theorem firstCycle_sampling (tick : Nat) (s : State) :
    (firstCycle tick s).sampling = { s.sampling with
      history := [], patchedSets := 0, lateSets := 0, firstCyclePending := false } := by
  unfold firstCycle openPartial
  dsimp only
  split
  · rfl
  · split <;> rfl

theorem firstCycle_powered (tick : Nat) (s : State) : (firstCycle tick s).powered = s.powered := by
  unfold firstCycle openPartial
  dsimp only
  split
  · rfl
  · split <;> rfl

theorem startCycle_powered (tick : Nat) (s : State) : (startCycle tick s).powered = s.powered := by
  unfold startCycle copyRetained
  dsimp only
  split
  · exact firstCycle_powered ..
  · rfl

/-- A cycle start keeps the codes last held. -/
theorem startCycle_heldSet (tick : Nat) (s : State) :
    (startCycle tick s).sampling.heldSet = s.sampling.heldSet := by
  have stepped := Sampling.freeRunStep_sameButTracking (nominalPeriod s.survey.settings) s.sampling
  unfold startCycle copyRetained
  dsimp only
  split
  · rw [firstCycle_sampling, stepped]
  · rw [stepped]

/-- A cycle start that is not a survey's first places the cycle and leaves the sets and their counters (R5, R18). -/
theorem startCycle_within_survey (tick : Nat) {s : State} (h : s.sampling.firstCyclePending = false) :
    (startCycle tick s).sampling.SameButTracking { s.sampling with
      cyclePeriod := (startCycle tick s).sampling.cyclePeriod
      cycleStart := tick
      cycle := s.sampling.cycle + 1 } := by
  have stepped := Sampling.freeRunStep_sameButTracking (nominalPeriod s.survey.settings) s.sampling
  unfold startCycle copyRetained nextCycleNumber
  rw [h, stepped]
  rfl

/-- Strobe `n` of a cycle driven at a tick, once the strobe before it is settled; strobe 0 starts a cycle (R5). -/
def strobeDriven (n tick : Nat) (s : State) : State := driveStrobe n tick (if n = 0 then startCycle tick s else s)

section
variable (n tick : Nat) (s : State)

@[simp] theorem strobeDriven_outstanding : (strobeDriven n tick s).sampling.outstanding = true := rfl

@[simp] theorem strobeDriven_powered : (strobeDriven n tick s).powered = s.powered := by
  unfold strobeDriven driveStrobe
  split
  · exact startCycle_powered ..
  · rfl

@[simp] theorem strobeDriven_heldSet : (strobeDriven n tick s).sampling.heldSet = s.sampling.heldSet := by
  unfold strobeDriven driveStrobe
  split
  · exact startCycle_heldSet ..
  · rfl

variable {s} (h : s.sampling.firstCyclePending = false)
include h

@[simp] theorem strobeDriven_history : (strobeDriven n tick s).sampling.history = s.sampling.history := by
  unfold strobeDriven driveStrobe
  split
  · dsimp only; rw [startCycle_within_survey tick h]
  · rfl

@[simp] theorem strobeDriven_patchedSets :
    (strobeDriven n tick s).sampling.patchedSets = s.sampling.patchedSets := by
  unfold strobeDriven driveStrobe
  split
  · dsimp only; rw [startCycle_within_survey tick h]
  · rfl

@[simp] theorem strobeDriven_lateSets : (strobeDriven n tick s).sampling.lateSets = s.sampling.lateSets := by
  unfold strobeDriven driveStrobe
  split
  · dsimp only; rw [startCycle_within_survey tick h]
  · rfl

end

/-- The state in which an unanswered strobe is patched: the clock at a tick, the patched set counted (R3). -/
def patchCounted (tick : Nat) (s : State) : State := { s with
  now := max s.now tick
  sampling := { s.sampling with patchedSets := min 65535 (s.sampling.patchedSets + 1) } }

/-- STROBE_DUE after an answered strobe drives the next one. -/
theorem exec_strobeDue_answered {s : State} (hp : s.powered = true) (ho : s.sampling.outstanding = false) :
    exec .strobeDue s = .next (strobeDriven ((s.sampling.position + 1) % 64) (nextStrobe s.sampling)
      { s with now := max s.now (nextStrobe s.sampling) }) := by
  simp [exec, execStrobeDue, whileRunning, patchOutstanding, strobeDriven, hp, ho]

/-- STROBE_DUE on an unanswered strobe settles it with a patched set, then drives the next one (R3). -/
theorem exec_strobeDue_outstanding {s : State} (hp : s.powered = true) (ho : s.sampling.outstanding = true) :
    exec .strobeDue s = .next (strobeDriven ((s.sampling.position + 1) % 64) (nextStrobe s.sampling)
      (settle (patchedSet s.sampling) (patchCounted (nextStrobe s.sampling) s))) := by
  simp [exec, execStrobeDue, whileRunning, patchOutstanding, strobeDriven, patchCounted, raise16, hp, ho]

/-! ### An arrival and a strobe that come together (R2) -/

/-- The arrival first: it answers the strobe outstanding, and the new strobe is left without a set. -/
theorem arrival_then_strobe {s : State} (hp : s.powered = true) (ho : s.sampling.outstanding = true)
    (v1 v2 v3 : BitVec 16) (o : Bool) :
    ∃ t u, exec (.sampleSetArrival v1 v2 v3 o) s = .next t ∧ exec .strobeDue t = .next u
      ∧ t.sampling.outstanding = false ∧ t.sampling.heldSet = some (arrivedSet v1 v2 v3 o).codes
      ∧ t.sampling.history = (arrivedSet v1 v2 v3 o :: s.sampling.history).take 64
      ∧ u.sampling.outstanding = true ∧ u.sampling.heldSet = some (arrivedSet v1 v2 v3 o).codes
      ∧ (s.sampling.firstCyclePending = false → u.sampling.history = t.sampling.history
          ∧ u.sampling.patchedSets = s.sampling.patchedSets ∧ u.sampling.lateSets = s.sampling.lateSets) := by
  refine ⟨_, _, exec_arrival_outstanding hp ho .., exec_strobeDue_answered (by simpa using hp) (by simp), ?_⟩
  refine ⟨by simp, by simp, by simp, by simp, by simp, fun first => ?_⟩
  simp [first]

/-- The strobe first: the strobe outstanding is patched, and the arrival answers the new one. -/
theorem strobe_then_arrival {s : State} (hp : s.powered = true) (ho : s.sampling.outstanding = true)
    (v1 v2 v3 : BitVec 16) (o : Bool) :
    ∃ t u, exec .strobeDue s = .next t ∧ exec (.sampleSetArrival v1 v2 v3 o) t = .next u
      ∧ t.sampling.outstanding = true ∧ t.sampling.heldSet = some (patchedSet s.sampling).codes
      ∧ u.sampling.outstanding = false ∧ u.sampling.heldSet = some (arrivedSet v1 v2 v3 o).codes
      ∧ u.sampling.lateSets = t.sampling.lateSets ∧ u.sampling.patchedSets = t.sampling.patchedSets
      ∧ u.sampling.history = (arrivedSet v1 v2 v3 o :: t.sampling.history).take 64
      ∧ (s.sampling.firstCyclePending = false → t.sampling.lateSets = s.sampling.lateSets
          ∧ t.sampling.patchedSets = min 65535 (s.sampling.patchedSets + 1)
          ∧ t.sampling.history = (patchedSet s.sampling :: s.sampling.history).take 64) := by
  refine ⟨_, _, exec_strobeDue_outstanding hp ho,
    exec_arrival_outstanding (by simpa [patchCounted] using hp) (by simp) .., ?_⟩
  refine ⟨by simp, by simp, by simp, by simp, by simp, by simp, by simp, fun first => ?_⟩
  simp [patchCounted, first]

end Sys2Proof.Machine

section
open Sys2Proof Sys2Proof.Machine

/-- Settles O9: a settled set answers its strobe at whatever position, so the set that comes with a strobe is the
answer to the one before it or, that one being patched, to the new one. -/
theorem arrivalAndStrobeTogether : Obligations.ArrivalAndStrobeTogether := by
  unfold Obligations.ArrivalAndStrobeTogether
  intro s v1 v2 v3 o hp
  exact ⟨fun late => exec_arrival_late hp late v1 v2 v3 o, fun ho =>
    ⟨arrival_then_strobe hp ho v1 v2 v3 o, strobe_then_arrival hp ho v1 v2 v3 o⟩⟩

end

/-! ## Offer selection: which entry of a list is picked (R119) -/

namespace Sys2Proof.Machine

/-! ### The tests of the want spec -/

theorem channelCount_eq (c : ChannelSet) :
    channelCount c = (if c.v1 then 1 else 0) + (if c.v2 then 1 else 0) + (if c.v3 then 1 else 0) := by
  obtain ⟨v1, v2, v3⟩ := c
  cases v1 <;> cases v2 <;> cases v3 <;> rfl

theorem nearlyMeets_iff {w : Wants} {o : Offer} :
    nearlyMeets w o = true ↔
      w.channels ≤ channelCount o.channels ∧ (o.decimation = 1 ∨ o.decimation = 2 ∧ w.decimation2 = true) := by
  simp [nearlyMeets]

/-- Step 2 gives up the minima of pre, post and rate only. -/
theorem meetsMinima_iff {w : Wants} {o : Offer} :
    meetsMinima w o = true ↔ nearlyMeets w o = true ∧ w.pre ≤ o.pre ∧ w.post ≤ o.post ∧ w.rate ≤ o.rate := by
  rw [nearlyMeets_iff]
  simp only [meetsMinima, Bool.and_eq_true, Bool.or_eq_true, decide_eq_true_eq, beq_iff_eq]
  tauto

/-! ### The longest entry that passes a test -/

/-- An entry passes a test and has the greatest pre + post of a list's entries that do, the earliest of equals. -/
def LongestAmong (p : ListedOffer → Bool) (ls : List ListedOffer) (l : ListedOffer) : Prop :=
  ∃ before after, ls = before ++ l :: after ∧ p l = true
    ∧ (∀ m ∈ before, p m = true → m.offer.pre + m.offer.post < l.offer.pre + l.offer.post)
    ∧ ∀ m ∈ after, p m = true → m.offer.pre + m.offer.post ≤ l.offer.pre + l.offer.post

section
variable {p : ListedOffer → Bool} {ls : List ListedOffer} {l x : ListedOffer}

theorem LongestAmong.le (h : LongestAmong p ls l) :
    ∀ m ∈ ls, p m = true → m.offer.pre + m.offer.post ≤ l.offer.pre + l.offer.post := by
  obtain ⟨before, after, rfl, -, shorter, noLonger⟩ := h
  intro m hm pm
  rcases List.mem_append.1 hm with hb | hl
  · exact (shorter m hb pm).le
  · rcases List.mem_cons.1 hl with rfl | ha
    · exact le_rfl
    · exact noLonger m ha pm

/-- An entry put in front leaves the longest as it was, unless it passes the test and is as long. -/
theorem LongestAmong.cons (h : LongestAmong p ls l)
    (hx : p x = true → x.offer.pre + x.offer.post < l.offer.pre + l.offer.post) : LongestAmong p (x :: ls) l := by
  obtain ⟨before, after, rfl, pl, shorter, noLonger⟩ := h
  exact ⟨x :: before, after, rfl, pl, List.forall_mem_cons.2 ⟨hx, shorter⟩, noLonger⟩

theorem longestAmong_head (px : p x = true)
    (h : ∀ m ∈ ls, p m = true → m.offer.pre + m.offer.post ≤ x.offer.pre + x.offer.post) :
    LongestAmong p (x :: ls) x :=
  ⟨[], ls, rfl, px, by simp, h⟩

@[simp] theorem longest_eq_none_iff : longest ls = none ↔ ls = [] := by
  cases ls with
  | nil => simp [longest]
  | cons x ls =>
    rw [longest]
    split
    · simp
    · split <;> simp

/-- What `longest` finds among the entries that pass a test. -/
theorem longestAmong_of_longest_filter (h : longest (ls.filter p) = some l) : LongestAmong p ls l := by
  induction ls generalizing l with
  | nil => simp [longest] at h
  | cons x ls ih =>
    by_cases px : p x = true
    case neg =>
      rw [List.filter_cons_of_neg px] at h
      exact (ih h).cons fun px' => absurd px' px
    case pos =>
      rw [List.filter_cons_of_pos px, longest] at h
      split at h
      next alone =>
        cases h
        exact longestAmong_head px fun m hm pm =>
          absurd pm (List.filter_eq_nil_iff.1 (longest_eq_none_iff.1 alone) m hm)
      next m found =>
        split at h
        next shorter =>
          cases h
          exact (ih found).cons fun _ => shorter
        next noShorter =>
          cases h
          exact longestAmong_head px fun y hy py => ((ih found).le y hy py).trans (not_lt.1 noShorter)

end

/-! ### The three steps -/

section
variable {w : Wants} {ls : List ListedOffer} {l : ListedOffer}

theorem chooseOffer_eq_none_iff : chooseOffer w ls = none ↔ ls = [] := by
  unfold chooseOffer
  constructor
  · intro h
    split at h
    · cases h
    · split at h
      · cases h
      · simpa using h
  · rintro rfl
    rfl

/-- Without mismatch the choice is step 1's. -/
theorem chooseOffer_eq_match_iff :
    chooseOffer w ls = some (l, false) ↔ ls.find? (fun m => meetsMinima w m.offer) = some l := by
  unfold chooseOffer
  split
  next found => simp [found]
  next missed => split <;> simp [missed]

/-- With mismatch step 1 found nothing, and the choice is step 2's or, failing that, step 3's. -/
theorem chooseOffer_eq_mismatch_iff :
    chooseOffer w ls = some (l, true) ↔ ls.find? (fun m => meetsMinima w m.offer) = none
      ∧ ((longest (ls.filter fun m => nearlyMeets w m.offer)).or ls.head?) = some l := by
  unfold chooseOffer
  split
  next found => simp [found]
  next missed => split <;> simp [*]

theorem chooseOffer_match_iff :
    chooseOffer w ls = some (l, false) ↔ ∃ before after, ls = before ++ l :: after ∧ meetsMinima w l.offer = true
      ∧ ∀ m ∈ before, ¬meetsMinima w m.offer = true := by
  simp [chooseOffer_eq_match_iff, List.find?_eq_some_iff_append, and_left_comm]

theorem chooseOffer_mismatch_meets_none (h : chooseOffer w ls = some (l, true)) :
    ∀ m ∈ ls, ¬meetsMinima w m.offer = true :=
  List.find?_eq_none.1 (chooseOffer_eq_mismatch_iff.1 h).1

theorem chooseOffer_mismatch_longest (h : chooseOffer w ls = some (l, true))
    (hn : ∃ m ∈ ls, nearlyMeets w m.offer = true) : LongestAmong (fun m => nearlyMeets w m.offer) ls l := by
  obtain ⟨-, chosen⟩ := chooseOffer_eq_mismatch_iff.1 h
  rcases Option.or_eq_some_iff.1 chosen with step2 | ⟨none2, -⟩
  · exact longestAmong_of_longest_filter step2
  · obtain ⟨m, hm, nm⟩ := hn
    exact absurd nm (List.filter_eq_nil_iff.1 (longest_eq_none_iff.1 none2) m hm)

theorem chooseOffer_mismatch_head (h : chooseOffer w ls = some (l, true))
    (hn : ∀ m ∈ ls, ¬nearlyMeets w m.offer = true) : ls.head? = some l := by
  obtain ⟨-, chosen⟩ := chooseOffer_eq_mismatch_iff.1 h
  rwa [List.filter_eq_nil_iff.2 hn, longest, Option.none_or] at chosen

end

end Sys2Proof.Machine

section
open Sys2Proof Sys2Proof.Machine

/-- Settles O34: the model's two tests are the statement's, and an induction on the list shows `longest` to find the
earliest of the greatest among the entries that pass step 2's. -/
theorem selectionPicksByTheWantSpec : Obligations.SelectionPicksByTheWantSpec := by
  unfold Obligations.SelectionPicksByTheWantSpec
  intro w ls nearly meets
  have nearly_iff (o : Offer) : nearly o ↔ nearlyMeets w o = true := by
    rw [nearlyMeets_iff, channelCount_eq]
  have meets_iff (o : Offer) : meets o ↔ meetsMinima w o = true := by
    rw [meetsMinima_iff, ← nearly_iff]
  simp only [meets_iff, nearly_iff]
  exact ⟨chooseOffer_eq_none_iff, fun _ => chooseOffer_match_iff, fun _ h =>
    ⟨chooseOffer_mismatch_meets_none h, chooseOffer_mismatch_longest h, chooseOffer_mismatch_head h⟩⟩

end

/-! ## The rasteriser: the dots of a cell, the passes of a row and their strobes (R160 to R162) -/

namespace Sys2Proof.Machine

/-! ### Lists read by position -/

theorem getD_map_of_lt {α β : Type} {l : List α} {i : Nat} (f : α → β) (d : α) (e : β) (h : i < l.length) :
    (l.map f).getD i e = f (l.getD i d) := by
  simp [h]

/-- Pieces of one width laid side by side: place `i` of piece `c`. -/
theorem getD_flatMap_of_length {α β : Type} {f : α → List β} {w : Nat} (hw : ∀ x, (f x).length = w) (d : α) (e : β)
    {i : Nat} (hi : i < w) : ∀ {l : List α} {c : Nat}, c < l.length →
      (l.flatMap f).getD (c * w + i) e = (f (l.getD c d)).getD i e
  | x :: l, 0, _ => by
    have first : i < (f x).length := by rw [hw]; exact hi
    rw [List.flatMap_cons, Nat.zero_mul, Nat.zero_add, List.getD_append _ _ _ _ first, List.getD_cons_zero]
  | x :: l, c + 1, hc => by
    have past : (c + 1) * w + i = (f x).length + (c * w + i) := by rw [hw, Nat.succ_mul]; omega
    rw [List.flatMap_cons, past, List.getD_append_right _ _ _ _ (Nat.le_add_right ..), Nat.add_sub_cancel_left,
      List.getD_cons_succ]
    exact getD_flatMap_of_length hw d e hi (Nat.lt_of_succ_lt_succ hc)

theorem length_flatMap_of_length {α β : Type} {f : α → List β} {w : Nat} (hw : ∀ x, (f x).length = w) (l : List α) :
    (l.flatMap f).length = l.length * w := by
  simp [List.length_flatMap, hw]

@[simp] theorem bitsOf_length (n v : Nat) : (bitsOf n v).length = n := by
  induction n with
  | zero => rfl
  | succ n ih => simp [bitsOf, ih]

theorem bitsOf_getD {n i : Nat} (v : Nat) (h : i < n) : (bitsOf n v).getD i false = v.testBit (n - 1 - i) := by
  induction n generalizing i with
  | zero => cases h
  | succ n ih =>
    cases i with
    | zero => simp [bitsOf]
    | succ i =>
      have place : n + 1 - 1 - (i + 1) = n - 1 - i := by omega
      rw [bitsOf, List.getD_cons_succ, ih (Nat.lt_of_succ_lt_succ h), place]

/-! ### Render settings of a job -/

theorem Render.isWide_of_width_eight {r : Render} (h : r.cellWidth = 8) : r.isWide = false := by
  simp [Render.isWide, h]

theorem Render.isWide_of_width_nine {r : Render} (h : r.cellWidth = 9) : r.isWide = true := by
  simp [Render.isWide, h]

/-- The strobe times of the four energy levels (R162). -/
theorem blackMicros_eq {energy : Nat} (h : energy ≤ 3) : blackMicros energy = [300, 350, 400, 450].getD energy 0 := by
  interval_cases energy <;> rfl

theorem redMicros_eq {energy : Nat} (h : energy ≤ 3) : redMicros energy = [180, 210, 240, 270].getD energy 0 := by
  rw [redMicros, blackMicros_eq h]
  interval_cases energy <;> rfl

/-! ### The dots of a cell (R160) -/

/-- Dots of a cell: 9 at the wide setting, 8 otherwise (R151). -/
def Render.cellDotCount (r : Render) : Nat := if r.isWide then 9 else 8

@[simp] theorem fontRow_length (bank code row : Nat) : (fontRow bank code row).length = 8 := by
  unfold fontRow
  split <;> simp

/-- The codes that print dots: those with a glyph, but for the space. -/
theorem hasGlyph_not_space (code : Nat) : (hasGlyph code && code != 0x20)
    = decide (0x21 ≤ code ∧ code ≤ 0x7E ∨ 0xC0 ≤ code ∧ code ≤ 0xDF) := by
  rw [Bool.eq_iff_iff]
  simp only [hasGlyph, Bool.and_eq_true, Bool.or_eq_true, decide_eq_true_eq, bne_iff_ne]
  omega

theorem fontRow_getD {bank code row i : Nat} (h : i < 8) : (fontRow bank code row).getD i false
    = (decide (0x21 ≤ code ∧ code ≤ 0x7E ∨ 0xC0 ≤ code ∧ code ≤ 0xDF)
      && (Config.fontDots bank code row).getLsbD (7 - i)) := by
  rw [fontRow, hasGlyph_not_space]
  split
  next printed => rw [bitsOf_getD _ h, printed, Bool.true_and, BitVec.testBit_toNat]
  next off => rw [Bool.eq_false_iff.2 off, List.getD_replicate _ h, Bool.false_and]

theorem isTableCode_eq (code : Nat) : isTableCode code = decide (0xC0 ≤ code ∧ code ≤ 0xDF) :=
  (Bool.decide_and ..).symm

theorem ninthDot_length {wide : Bool} {code : Nat} {dots : List Bool} (h : dots.length = 8) :
    (ninthDot wide code dots).length = if wide then 9 else 8 := by
  cases wide <;> simp [ninthDot, h]

/-- The first eight dots are the glyph's; past them stands the copy of the eighth. -/
theorem ninthDot_getD {wide : Bool} {code i : Nat} {dots : List Bool} (h : dots.length = 8)
    (hi : i < if wide then 9 else 8) : (ninthDot wide code dots).getD i false
      = if i < 8 then dots.getD i false else isTableCode code && dots.getD 7 false := by
  cases wide with
  | false =>
    have glyph : i < 8 := hi
    rw [if_pos glyph]
    rfl
  | true =>
    have last : dots.getLastD false = dots.getD 7 false := by
      rw [List.getLastD_eq_getLast?, List.getLast?_eq_getElem?, h, List.getD_eq_getElem?_getD]
    rw [ninthDot, if_pos rfl, last]
    split
    next glyph => rw [List.getD_append _ _ _ _ (by omega)]
    next ninth =>
      obtain rfl : i = 8 := by simp only [if_true] at hi; omega
      rw [List.getD_append_right _ _ _ _ (by omega), h, Nat.sub_self, List.getD_cons_zero]

/-- Underline and inverse act on each dot of a cell alike. -/
theorem cellDots_eq_map (r : Render) (row : Nat) (c : LineCell) : cellDots r row c
    = (ninthDot r.isWide c.code.toNat (fontRow (if c.fontB then r.bankB else r.bankA) c.code.toNat row)).map
        fun on => (decide (c.underline = true ∧ row = 15) || on) != c.inverse := by
  have underlined : (c.underline && row == 15) = decide (c.underline = true ∧ row = 15) := by
    rw [Bool.eq_iff_iff]; simp
  rw [cellDots, underlined]
  cases decide (c.underline = true ∧ row = 15) <;> cases c.inverse <;> simp

theorem cellDots_length (r : Render) (row : Nat) (c : LineCell) : (cellDots r row c).length = r.cellDotCount := by
  rw [cellDots_eq_map, List.length_map, ninthDot_length (fontRow_length ..), Render.cellDotCount]

/-- Dot `i` of a cell in a font row (R160). -/
theorem cellDots_getD {r : Render} {row i : Nat} {c : LineCell} (h : i < r.cellDotCount) :
    (cellDots r row c).getD i false = ((decide (c.underline = true ∧ row = 15)
      || if i < 8 then (fontRow (if c.fontB then r.bankB else r.bankA) c.code.toNat row).getD i false
        else isTableCode c.code.toNat
          && (fontRow (if c.fontB then r.bankB else r.bankA) c.code.toNat row).getD 7 false) != c.inverse) := by
  have carried := h
  rw [← cellDots_length r row c, cellDots_eq_map, List.length_map] at carried
  rw [cellDots_eq_map, getD_map_of_lt _ false _ carried, ninthDot_getD (fontRow_length ..) h]

/-! ### The dots of a line (R151, R160) -/

theorem laidCells_length (r : Render) (cells : List LineCell) : (laidCells r cells).length = r.lineCells := by
  simp only [laidCells, List.length_append, List.length_take, List.length_replicate]
  omega

/-- A cell not carried stands as a space. -/
theorem laidCells_getD {r : Render} {c : Nat} (cells : List LineCell) (h : c < r.lineCells) :
    (laidCells r cells).getD c LineCell.blank = cells.getD c LineCell.blank := by
  rw [laidCells]
  rcases Nat.lt_or_ge c cells.length with carried | missing
  · rw [List.getD_append _ _ _ _ (by rw [List.length_take]; omega)]
    simp [h]
  · rw [List.getD_append_right _ _ _ _ (by rw [List.length_take]; omega), List.getD_eq_default _ _ missing,
      List.getD_replicate _ (by rw [List.length_take]; omega)]

theorem rowDots_length (r : Render) (twoc : Bool) (row : Nat) (cells : List LineCell) :
    (rowDots r twoc row cells).length = r.lineCells * r.cellDotCount := by
  rw [rowDots, length_flatMap_of_length (fun c => by rw [List.length_map, cellDots_length]), laidCells_length]

/-- Dot `i` of cell `c` of a line, with its pass (R160, R161). -/
theorem rowDots_getD {r : Render} {twoc : Bool} {row c i : Nat} {cells : List LineCell} (hc : c < r.lineCells)
    (hi : i < r.cellDotCount) : (rowDots r twoc row cells).getD (c * r.cellDotCount + i) (false, false)
      = ((cellDots r row (cells.getD c LineCell.blank)).getD i false,
          (cells.getD c LineCell.blank).red && twoc) := by
  rw [rowDots, getD_flatMap_of_length (fun c => by rw [List.length_map, cellDots_length]) LineCell.blank _ hi
    (by rw [laidCells_length]; exact hc), laidCells_getD _ hc,
    getD_map_of_lt _ false _ (by rw [cellDots_length]; exact hi)]

/-- A dot goes to the red pass only where TWOC is strapped. -/
theorem rowDots_black_only {r : Render} {row : Nat} {cells : List LineCell} {x : Bool × Bool}
    (h : x ∈ rowDots r false row cells) : x.2 = false := by
  simp only [rowDots, Bool.and_false, List.mem_flatMap, List.mem_map] at h
  obtain ⟨c, -, on, -, rfl⟩ := h
  rfl

/-! ### The passes of a row (R161) -/

theorem testBit_dotsNat (l : List Bool) (i : Nat) : (dotsNat l).testBit i = l.getD i false := by
  induction l generalizing i with
  | nil => simp [dotsNat]
  | cons b l ih =>
    have shift : dotsNat (b :: l) = 2 * dotsNat l + b.toNat := by cases b <;> rfl
    rw [shift]
    cases i with
    | zero => cases b <;> simp [Nat.testBit_zero]
    | succ i =>
      have half : (2 * dotsNat l + b.toNat) / 2 = dotsNat l := by cases b <;> simp; omega
      rw [Nat.testBit_succ, half, ih, List.getD_cons_succ]

theorem getLsbD_ofNat_dotsNat {l : List Bool} {i : Nat} (h : i < 448) :
    (BitVec.ofNat 448 (dotsNat l)).getLsbD i = l.getD i false := by
  rw [BitVec.getLsbD_ofNat, decide_eq_true h, Bool.true_and, testBit_dotsNat]

theorem blackPass_getD (l : List (Bool × Bool)) (i : Nat) : (blackPass l).getD i false
    = ((l.getD i (false, false)).1 && !(l.getD i (false, false)).2) :=
  List.getD_map l (false, false) fun x => x.1 && !x.2

theorem redPass_getD (l : List (Bool × Bool)) (i : Nat) : (redPass l).getD i false
    = ((l.getD i (false, false)).1 && (l.getD i (false, false)).2) :=
  List.getD_map l (false, false) fun x => x.1 && x.2

theorem rowOf_black_getLsbD {l : List (Bool × Bool)} {i : Nat} (energy : Nat) (h : i < 448) :
    (rowOf energy l).black.getLsbD i
      = ((l.getD i (false, false)).1 && !(l.getD i (false, false)).2) :=
  (getLsbD_ofNat_dotsNat h).trans (blackPass_getD l i)

theorem rowOf_red_getLsbD {l : List (Bool × Bool)} {i : Nat} (energy : Nat) (h : i < 448) :
    (rowOf energy l).red.getLsbD i = ((l.getD i (false, false)).1 && (l.getD i (false, false)).2) :=
  (getLsbD_ofNat_dotsNat h).trans (redPass_getD l i)

/-- No dot is on in both passes: the black one takes it where it is not red, the red one where it is. -/
theorem rowOf_passes_apart (energy : Nat) (l : List (Bool × Bool)) :
    (rowOf energy l).black &&& (rowOf energy l).red = 0 := by
  refine BitVec.eq_of_getLsbD_eq fun i hi => ?_
  rw [BitVec.getLsbD_and, rowOf_black_getLsbD _ hi, rowOf_red_getLsbD _ hi, BitVec.ofNat_eq_ofNat,
    BitVec.getLsbD_zero]
  cases (l.getD i (false, false)).2 <;> simp

theorem rowOf_red_eq_zero {energy : Nat} {l : List (Bool × Bool)} (h : ∀ x ∈ l, x.2 = false) :
    (rowOf energy l).red = 0 := by
  refine BitVec.eq_of_getLsbD_eq fun i hi => ?_
  have black : (l.getD i (false, false)).2 = false := by
    rcases Nat.lt_or_ge i l.length with inside | beyond
    · rw [List.getD_eq_getElem _ _ inside]; exact h _ (List.getElem_mem inside)
    · rw [List.getD_eq_default _ _ beyond]
  rw [rowOf_red_getLsbD _ hi, black, Bool.and_false, BitVec.ofNat_eq_ofNat, BitVec.getLsbD_zero]

theorem lineRow_of_lt {l : BufferLine} {n : Nat} (r : Render) (twoc : Bool) (h : n < l.height) :
    lineRow r twoc l n = rowOf r.energy (rowDots r twoc (l.fontRowAt n) l.cells) :=
  if_pos h

theorem lineRow_of_ge {l : BufferLine} {n : Nat} (r : Render) (twoc : Bool) (h : l.height ≤ n) :
    lineRow r twoc l n = blankRow false :=
  if_neg (Nat.not_lt.2 h)

theorem lineRow_feed (r : Render) (twoc : Bool) (l : BufferLine) (n : Nat) : (lineRow r twoc l n).feed = false := by
  unfold lineRow
  split <;> rfl

theorem lineRow_passes_apart (r : Render) (twoc : Bool) (l : BufferLine) (n : Nat) :
    (lineRow r twoc l n).black &&& (lineRow r twoc l n).red = 0 := by
  unfold lineRow
  split
  next dots => exact rowOf_passes_apart ..
  next gap => exact BitVec.zero_and

theorem lineRow_red_of_no_twoc (r : Render) (l : BufferLine) (n : Nat) : (lineRow r false l n).red = 0 := by
  unfold lineRow
  split
  next dots => exact rowOf_red_eq_zero fun _ => rowDots_black_only
  next gap => rfl

/-! ### The strobes of a row (R162) -/

/-- The dots on among `n` from dot `a` on, counted by position. -/
theorem length_filter_take_drop (l : List Bool) (a n : Nat) : (((l.drop a).take n).filter id).length
    = ((List.range' a n).filter fun i => l.getD i false).length := by
  induction n generalizing a with
  | zero => simp
  | succ n ih =>
    rcases Nat.lt_or_ge a l.length with inside | beyond
    · rw [List.drop_eq_getElem_cons inside, List.take_succ_cons, List.range'_succ, List.filter_cons, List.filter_cons,
        List.getD_eq_getElem _ _ inside, id]
      split
      next on => rw [List.length_cons, List.length_cons, ih]
      next off => exact ih _
    · rw [List.drop_eq_nil_of_le beyond, List.range'_succ, List.filter_cons_of_neg, ← ih, List.drop_eq_nil_of_le]
      · simp
      · omega
      · simp [List.getElem?_eq_none beyond]

/-- Dots on in one of the four groups, counted in the pass's pattern. -/
theorem groupCount_eq {g : Nat} (pass : List Bool) (h : g < 4) : groupCount pass g
    = ((List.range' (112 * g) 112).filter fun i => (BitVec.ofNat 448 (dotsNat pass)).getLsbD i).length := by
  rw [groupCount, length_filter_take_drop]
  refine congrArg List.length (List.filter_congr fun i hi => ?_)
  rw [List.mem_range'_1] at hi
  rw [getLsbD_ofNat_dotsNat (by omega)]

/-- The strobes that drive the dots on in a group of a pass's pattern, in the form R162 gives them. -/
def strobesOfPattern (red : Bool) (micros : Nat) (pattern : BitVec 448) (g : Nat) : List HeadStrobe :=
  let on := ((List.range' (112 * g) 112).filter fun i => pattern.getLsbD i).length
  let strobe := fun half : Nat => ({ red := red, group := g, half := half, micros := micros } : HeadStrobe)
  if on = 0 then [] else if on ≤ 56 then [strobe 0] else [strobe 1, strobe 2]

theorem passStrobes_eq (red : Bool) (micros : Nat) (pass : List Bool) : passStrobes red micros pass
    = (List.range 4).flatMap (strobesOfPattern red micros (BitVec.ofNat 448 (dotsNat pass))) := by
  refine List.flatMap_congr fun g hg => ?_
  rw [groupStrobes, groupCount_eq pass (List.mem_range.1 hg)]
  rfl

/-- The strobes of a row of dots are read off its two patterns, black first. -/
theorem rowOf_strobes (energy : Nat) (l : List (Bool × Bool)) : (rowOf energy l).strobes
    = (List.range 4).flatMap (strobesOfPattern false (blackMicros energy) (rowOf energy l).black)
      ++ (List.range 4).flatMap (strobesOfPattern true (redMicros energy) (rowOf energy l).red) := by
  exact congrArg₂ (· ++ ·) (passStrobes_eq ..) (passStrobes_eq ..)

end Sys2Proof.Machine

section
open Sys2Proof Sys2Proof.Machine

/-- Settles O51: each dot of a row is a dot of one cell with that cell's pass, and the patterns' bits are the dots. -/
theorem eachDotIsInOnePass : Obligations.EachDotIsInOnePass := by
  unfold Obligations.EachDotIsInOnePass
  refine ⟨fun r twoc l n => ⟨lineRow_feed .., lineRow_passes_apart .., ?noTwoc, ?dots, ?gap, ?strobes⟩,
    fun _ => ⟨rfl, rfl, rfl, rfl⟩,
    fun r twoc row i c cells => ⟨r.isWide_of_width_eight, r.isWide_of_width_nine, ?cell, ?beyond⟩⟩
  case noTwoc =>
    rintro rfl
    exact lineRow_red_of_no_twoc ..
  case dots =>
    intro hn i hi
    rw [lineRow_of_lt r twoc hn]
    exact ⟨rowOf_black_getLsbD _ hi, rowOf_red_getLsbD _ hi⟩
  case gap =>
    intro hn
    rw [lineRow_of_ge r twoc hn]
    exact ⟨rfl, rfl, rfl⟩
  case strobes =>
    intro hn he
    rw [lineRow_of_lt r twoc hn, rowOf_strobes, blackMicros_eq he, redMicros_eq he,
      List.flatMap_cons, List.flatMap_cons, List.flatMap_nil, List.append_nil]
    rfl
  case cell =>
    intro hc hi
    have lit := cellDots_getD (row := row) (c := cells.getD c LineCell.blank) hi
    rw [fontRow_getD (by decide : 7 < 8), isTableCode_eq] at lit
    refine (rowDots_getD hc hi).trans (Prod.ext (lit.trans ?_) rfl)
    split
    next glyph => rw [fontRow_getD glyph]; rfl
    next ninth => rfl
  case beyond =>
    intro hi
    exact List.getD_eq_default _ _ ((rowDots_length r twoc row cells).trans_le hi)

end
